-- ==== Sys2Proof/Word.lean ====
section
/-! DEFINITION. The word types of the block: nothing but names for bit vectors (00_scope.md R5, R6). -/

namespace Sys2Proof

/-- The rational word, `WW` = 256 bits (R5, R22). -/
abbrev Word := BitVec 256

/-- One field of a word, `FW` = 128 bits (R5, R22). -/
abbrev Field := BitVec 128

/-- The command word CMD, `CW` = 32 bits (R6, R50). -/
abbrev CmdWord := BitVec 32

/-- The opcode field OPC, `OPW` = 8 bits (R6, R50). -/
abbrev Opcode := BitVec 8

/-- The STATUS register, `SW` = 8 bits (R6, R30). -/
abbrev StatusWord := BitVec 8

/-- One byte of a serialised word (20_memory.md R44). -/
abbrev Byte := BitVec 8

end Sys2Proof
end

