-- ==== Sys2Proof/Config.lean ====
section
/-! DEFINITION. What is fixed for the machine (00_scope.md R5, R6) and the free values the spec leaves open.

The open parameter `LATENCY` (R174, D20) and the contents of the working registers (R32, R95) are constants
without a body: no proof can learn a value of theirs. The other open parameter, `HOST_BYTE_ORDER` (R44, D24), is an
argument of the functions of Machine/Serial.lean. -/

namespace Sys2Proof.Config

/-- `FW`, the field width in bits (R5). -/
abbrev FW : Nat := 128

/-- `WW`, the word width in bits, twice `FW` (R5). -/
abbrev WW : Nat := 256

/-- `MAX128`, the largest value of a field (R5). -/
abbrev MAX128 : Nat := 0xFFFFFFFFFFFFFFFFFFFFFFFFFFFFFFFF

/-- LATENCY (R174): how many further events of the block pass before the command completes. It is a natural number, so
finite, and may depend on the command and its operands, and, through the first argument (the count of free values drawn
so far), on anything else. DESIGN CHOICE (log 3): the spec leaves the parameter open; safe, since nothing constrains it. -/
opaque latency (draw : Nat) (cmd : CmdWord) (a b : Word) : Nat

/-- What the working registers of a command in progress hold (R32, R95: any datapath). DESIGN CHOICE (log 4): a list of
numbers of any length, free at each draw; safe. -/
opaque working (draw : Nat) : List Nat

end Sys2Proof.Config
end

