-- ==== Sys2Proof/Syntax.lean ====
section
/-! DEFINITION. The commands of the block: one constructor for each row of spec/opcode_table.json (30_encoding.md R52).
A command carries no operand in its word: operands travel on OPA and OPB only (R50, R51). -/

namespace Sys2Proof

/-- The 18 commands (R52). -/
inductive Instr where
  /-- PACK (R73) -/
  | pack
  /-- UNPACKN (R74) -/
  | unpackn
  /-- UNPACKD (R75) -/
  | unpackd
  /-- FROMINT (R76) -/
  | fromint
  /-- TOINT (R77) -/
  | toint
  /-- ZERO (R78) -/
  | zero
  /-- REDUCE (R94) -/
  | reduce
  /-- ADD (R101) -/
  | add
  /-- SUB (R102) -/
  | sub
  /-- MUL (R110) -/
  | mul
  /-- DIV (R120) -/
  | div
  /-- CMP (R131) -/
  | cmp
  /-- EQ (R132) -/
  | eq
  /-- NE (R133) -/
  | ne
  /-- LT (R134) -/
  | lt
  /-- LE (R135) -/
  | le
  /-- GT (R136) -/
  | gt
  /-- GE (R137) -/
  | ge
  deriving DecidableEq, Repr

end Sys2Proof
end

