-- ==== Sys2Proof/WellFormed.lean ====
section
/-! DEFINITION. Well-formedness (30_encoding.md R50, R52, R53).

A term of `Instr` carries no operand, so every term is well-formed. What can be ill-formed is a command WORD: its reserved
bits must be 0 and its opcode must be assigned. The two checks are written on numbers, from the ranges of R52, apart
from the decoder's own table; that the two agree is a statement of Certificates/Slice0. The check of a line of the
command syntax (R56), which does carry operands, is `Line.wellFormed` of Machine/Assembler.lean. -/

namespace Sys2Proof

/-- RSV = CMD[31:8] is 0 (R50, R53). -/
def reservedBitsZero (w : CmdWord) : Bool := w.toNat / 256 == 0

/-- OPC = CMD[7:0] is one of the assigned values, by the sub-block ranges of R52. -/
def opcodeAssigned (w : CmdWord) : Bool :=
  let o := w.toNat % 256
  (0x01 ≤ o && o ≤ 0x06) || o == 0x08 || (0x10 ≤ o && o ≤ 0x11) || o == 0x18 || o == 0x20 || (0x28 ≤ o && o ≤ 0x2E)

/-- A command word is legal (R53). -/
def commandWellFormed (w : CmdWord) : Bool := reservedBitsZero w && opcodeAssigned w

end Sys2Proof
end

