-- ==== Sys2Proof/Decode.lean ====
section
/-! DEFINITION. Decoding and encoding of the command word (30_encoding.md R50 to R55). -/

namespace Sys2Proof

/-- Why a command word is illegal (R53). Both end in error IllegalCommand; the two names are the model's. -/
inductive Illegal where
  /-- RSV ≠ 0 -/
  | reservedBitsSet
  /-- OPC is not assigned in R52 -/
  | opcodeUnassigned
  deriving DecidableEq, Repr

/-- The one outcome of decoding (R55): a command, or an illegal word. -/
inductive Decoded where
  | ok (i : Instr)
  | illegal (why : Illegal)
  deriving DecidableEq, Repr

/-- OPC = CMD[7:0] (R50). -/
def opcodeField (w : CmdWord) : Opcode := w.extractLsb' 0 8

/-- RSV = CMD[31:8] (R50). -/
def reservedField (w : CmdWord) : BitVec 24 := w.extractLsb' 8 24

/-- The opcode map (R52). -/
def opcodeMap : List (Opcode × Instr) :=
  [(0x01, .pack), (0x02, .unpackn), (0x03, .unpackd), (0x04, .fromint), (0x05, .toint), (0x06, .zero)] ++
  [(0x08, .reduce)] ++
  [(0x10, .add), (0x11, .sub)] ++
  [(0x18, .mul)] ++
  [(0x20, .div)] ++
  [(0x28, .cmp), (0x29, .eq), (0x2A, .ne), (0x2B, .lt), (0x2C, .le), (0x2D, .gt), (0x2E, .ge)]

/-- The row of a table that an opcode selects. -/
def lookupOpcode (o : Opcode) : List (Opcode × Instr) → Option Instr
  | [] => none
  | (k, i) :: rest => if o = k then some i else lookupOpcode o rest

/-- Decoding is total (R55): reserved bits set, or an opcode outside the map, make the word illegal (R53). -/
def decode (w : CmdWord) : Decoded :=
  if reservedField w = 0 then
    match lookupOpcode (opcodeField w) opcodeMap with
    | some i => .ok i
    | none => .illegal .opcodeUnassigned
  else .illegal .reservedBitsSet

/-- The opcode of each command (R52). -/
def opcodeOf : Instr → Opcode
  | .pack => 0x01
  | .unpackn => 0x02
  | .unpackd => 0x03
  | .fromint => 0x04
  | .toint => 0x05
  | .zero => 0x06
  | .reduce => 0x08
  | .add => 0x10
  | .sub => 0x11
  | .mul => 0x18
  | .div => 0x20
  | .cmp => 0x28
  | .eq => 0x29
  | .ne => 0x2A
  | .lt => 0x2B
  | .le => 0x2C
  | .gt => 0x2D
  | .ge => 0x2E

/-- The command word of a command: `0x000000` followed by its opcode byte (R52). -/
def encode (i : Instr) : CmdWord := (opcodeOf i).setWidth 32

/-- The command word that a table row's bits stand for: bit k of the number is bit k of CMD (20_memory.md R43), bits
above `nbits` are 0. -/
def tableWord (nbits w : Nat) : CmdWord := BitVec.ofNat 32 (w % 2 ^ nbits)

/-- What the decoder reads from the bits of a row of spec/opcode_table.json. A value that does not fit the one format of
32 bits (R50) is no command. -/
def decodeTableWord (nbits w : Nat) : Option Instr :=
  if w % 2 ^ nbits < 2 ^ 32 then
    match decode (tableWord nbits w) with
    | .ok i => some i
    | .illegal _ => none
  else none

end Sys2Proof
end

