-- ==== Sys2Proof/Machine/State.lean ====
section
/-! DEFINITION. The state of the block (10_state.md R29 to R34), the reasons a run can stop, and reset. -/

namespace Sys2Proof.Machine

/-- The five error kinds a command can complete with (60_exceptions.md R150). They stop nothing: an error is one way a
command completes (R154). -/
inductive ErrorKind where
  | overflow
  | underflow
  | divisionByZero
  | invalidOperand
  | illegalCommand
  deriving DecidableEq, Repr

/-- Why the machine stops. -/
inductive Fault where
  /-- Raised by the HOST's read of RES as a result while STATUS.RV = 0, never by a command (R31, R177, D27). Safe: the
  block drives 0 there and goes on, and the spec asks a model to fault. -/
  | resultNotValid
  deriving DecidableEq, Repr

/-- Why an instruction has no meaning. -/
inductive Refusal where
  /-- Raised by `exec` for a command without a meaning. Every command of this model has its meaning, so nothing raises
  it. Safe. -/
  | notModelled (mnemonic : String)
  deriving DecidableEq, Repr

/-- The input ports, as the host drives them (R21). CLK is left out: the model is untimed (R179, log 17). -/
structure Pins where
  /-- RST, active high (R170) -/
  rst : Bool
  /-- REQ_VALID (R173) -/
  reqValid : Bool
  /-- CMD, the command word presented -/
  cmd : CmdWord
  /-- OPA, operand A presented -/
  opa : Word
  /-- OPB, operand B presented -/
  opb : Word
  deriving DecidableEq, Repr

/-- What the host can do to the block (R173, R46). DESIGN CHOICE (log 7): each action is a step of its own. -/
inductive HostAction where
  /-- The host does nothing and lets the block have its next event. -/
  | letBlockMove
  /-- The host changes the input ports, RST among them. -/
  | drive (p : Pins)
  /-- The host reads RES as a result and keeps the value (R20, R31, R177). -/
  | readResult
  deriving DecidableEq, Repr

/-- The whole state. -/
structure State where
  /-- RES: the result of the most recent completed command (R29) -/
  res : Word
  /-- STATUS: ERR [2:0], RV [3], [7:4] reserved (R30) -/
  status : StatusWord
  /-- BUSY: from acceptance to completion (R32) -/
  busy : Bool
  /-- RSP_VALID: marks a completion (R173; log 5 says how long) -/
  rspValid : Bool
  /-- CMD_L: the latched command word (R32) -/
  cmdL : CmdWord
  /-- A: the latched operand OPA (R32) -/
  latA : Word
  /-- B: the latched operand OPB (R32) -/
  latB : Word
  /-- The working registers of a command in progress (R32): their number and widths are not given (log 4) -/
  work : List Nat
  /-- The input ports as now driven (R21) -/
  pins : Pins
  /-- The model's own: events the command in progress still waits (LATENCY, R174, log 3) -/
  wait : Nat
  /-- The model's own: how many free values have been drawn (log 3, log 4) -/
  draws : Nat
  /-- The host's next actions, oldest first (log 7) -/
  host : List HostAction
  /-- The values the host has read from RES, oldest first (R20, log 9) -/
  held : List Word
  deriving DecidableEq, Repr

/-- The input ports of a host that drives nothing: all low. DESIGN CHOICE (log 1). -/
def Pins.undriven : Pins := { rst := false, reqValid := false, cmd := 0, opa := 0, opb := 0 }

/-- The machine right after reset (R34): RES = 0, STATUS = 0x00, BUSY = 0, RSP_VALID = 0. The latches CMD_L, A, B and the
working registers are unspecified there and hold 0 or nothing (DESIGN CHOICE, log 2). -/
def State.reset : State :=
  { res := 0, status := 0x00, busy := false, rspValid := false
    cmdL := 0, latA := 0, latB := 0, work := []
    pins := Pins.undriven, wait := 0, draws := 0, host := [], held := [] }

end Sys2Proof.Machine
end

