-- ==== Sys2Proof/Machine/Flags.lean ====
section
/-! DEFINITION. STATUS: its fields, the error codes, the values a completion writes (10_state.md R30, 60_exceptions.md
R150, R154, R155). -/

namespace Sys2Proof.Machine

/-- The error codes (R150). -/
def ErrorKind.code : ErrorKind → BitVec 3
  | .overflow => 1
  | .underflow => 2
  | .divisionByZero => 3
  | .invalidOperand => 4
  | .illegalCommand => 5

/-- A STATUS word from its two fields; bits [7:4] are hardwired 0 (R30). -/
def statusOf (rv : Bool) (err : BitVec 3) : StatusWord := (BitVec.ofBool rv ++ err).setWidth 8

/-- What a completion without error writes: RV = 1, ERR = 0 (R155). -/
def statusOk : StatusWord := statusOf true 0

/-- What a completion with error E writes: RV = 0, ERR = code(E) (R154). -/
def statusError (e : ErrorKind) : StatusWord := statusOf false e.code

/-- STATUS.ERR (R30). -/
def errField (st : StatusWord) : BitVec 3 := st.extractLsb' 0 3

/-- STATUS.RV (R30). -/
def rvField (st : StatusWord) : Bool := st.getLsbD 3

/-- The STATUS port: the register, with the reserved bits [7:4] always read as 0 (R30). -/
def State.statusPort (s : State) : StatusWord := s.status &&& 0x0F

/-- The RES port always drives the RES register (R21, R29). -/
def State.resPort (s : State) : Word := s.res

/-- The REQ_READY port: not BUSY (R21), and 0 while RST = 1 (R170). DEDUCED (log 6). -/
def State.reqReady (s : State) : Bool := !s.busy && !s.pins.rst

end Sys2Proof.Machine
end

