-- ==== Sys2Proof/Machine/Operands.lean ====
section
/-! DEFINITION. The word format, the codec primitives and the ways a command reads an operand (10_state.md R22 to R26,
40_pack_unpack.md R70, R71, 30_encoding.md R51). -/

namespace Sys2Proof.Machine

open Sys2Proof.Config

/-- `Num(w)` = w[255:128] as a bit field (R71). -/
def numField (w : Word) : Field := w.extractLsb' 128 128

/-- `Den(w)` = w[127:0] as a bit field (R71). -/
def denField (w : Word) : Field := w.extractLsb' 0 128

/-- `Num(w)` as the unsigned integer it stands for (R8, R71). -/
def num (w : Word) : Nat := (numField w).toNat

/-- `Den(w)` as the unsigned integer it stands for (R8, R71). -/
def den (w : Word) : Nat := (denField w).toNat

/-- `Pack(n, d)` = {n[127:0], d[127:0]} (R10, R70). Every caller has checked n, d ≤ MAX128. -/
def pack (n d : Nat) : Word := BitVec.ofNat 128 n ++ BitVec.ofNat 128 d

/-- `zext_256(v)` for v < 2^256 (R9). -/
def zext (v : Nat) : Word := BitVec.ofNat 256 v

/-- `ZERO`, the canonical zero (R23). -/
def zeroWord : Word := pack 0 1

/-- `IsZero(w)` (R23). -/
def isZero (w : Word) : Bool := num w == 0

/-- A malformed word: numerator not 0 and denominator 0 (R25). -/
def malformed (w : Word) : Bool := num w != 0 && den w == 0

/-- What the pseudocode of a command ends in: `return v` or `raise E` (R10). -/
abbrev Answer := Except ErrorKind Word

/-- `CheckFrac(w)`, then the rest of the pseudocode (R26). -/
def checkFrac (w : Word) (rest : Answer) : Answer :=
  if malformed w then .error .invalidOperand else rest

/-- The check of an operand read as an integer: at most MAX128 (R51, R73, R76). -/
def checkInt (w : Word) (rest : Answer) : Answer :=
  if w.toNat > MAX128 then .error .invalidOperand else rest

/-- The four ways a command reads an operand (R51). -/
inductive OperandKind where
  | fraction
  | rawWord
  | integer
  | ignored
  deriving DecidableEq, Repr

/-- How each command reads OPA (R51). -/
def opaKind : Instr → OperandKind
  | .pack => .integer
  | .unpackn => .rawWord
  | .unpackd => .rawWord
  | .fromint => .integer
  | .toint => .fraction
  | .zero => .ignored
  | .reduce => .fraction
  | .add => .fraction
  | .sub => .fraction
  | .mul => .fraction
  | .div => .fraction
  | .cmp => .fraction
  | .eq => .fraction
  | .ne => .fraction
  | .lt => .fraction
  | .le => .fraction
  | .gt => .fraction
  | .ge => .fraction

/-- How each command reads OPB (R51). -/
def opbKind : Instr → OperandKind
  | .pack => .integer
  | .unpackn => .ignored
  | .unpackd => .ignored
  | .fromint => .ignored
  | .toint => .ignored
  | .zero => .ignored
  | .reduce => .ignored
  | .add => .fraction
  | .sub => .fraction
  | .mul => .fraction
  | .div => .fraction
  | .cmp => .fraction
  | .eq => .fraction
  | .ne => .fraction
  | .lt => .fraction
  | .le => .fraction
  | .gt => .fraction
  | .ge => .fraction

/-- An operand passes the check of the way it is read (R51). -/
def operandOk : OperandKind → Word → Bool
  | .fraction, w => !malformed w
  | .rawWord, _ => true
  | .integer, w => decide (w.toNat ≤ MAX128)
  | .ignored, _ => true

end Sys2Proof.Machine
end

