-- ==== Sys2Proof/Machine/Ops.lean ====
section
/-! DEFINITION. The operations on the state that all commands share: completion without and with an error (this block's
"exception entry"; nothing returns from it, R157), acceptance, an event of a command in progress, reset, the host's
actions (60_exceptions.md R154, R155, 70_reset_and_hazards.md R170 to R178). -/

namespace Sys2Proof.Machine

open Sys2Proof.Config

/-- Completion without error (R155): RES, STATUS and BUSY together; RSP_VALID marks the event. -/
def completeOk (v : Word) (s : State) : State :=
  { s with res := v, status := statusOk, busy := false, rspValid := true }

/-- Completion with an error (R154): RES = 0, the code in STATUS, nothing else saved, no vector, no mode (R156). -/
def completeError (e : ErrorKind) (s : State) : State :=
  { s with res := 0, status := statusError e, busy := false, rspValid := true }

/-- The completion event of a command whose pseudocode ends in `r` (R10, R173). -/
def complete (r : Answer) (s : State) : State :=
  match r with
  | .ok v => completeOk v s
  | .error e => completeError e s

/-- `complete` as the outcome of a step. -/
def finish (r : Answer) (s : State) : Host.Outcome State Fault Refusal := .next (complete r s)

/-- Acceptance (R173): CMD, OPA and OPB are sampled together and BUSY is set. The latency (R174) and the contents of the
working registers (R32) are free values (log 3, log 4). DESIGN CHOICE (log 20, unsafe): every instance of a platform draws
from the same constants at its own counter, so equal histories give equal latencies, which the spec does not say. -/
def accept (s : State) : State :=
  { s with
    busy := true, rspValid := false
    cmdL := s.pins.cmd, latA := s.pins.opa, latB := s.pins.opb
    wait := latency s.draws s.pins.cmd s.pins.opa s.pins.opb
    work := working s.draws
    draws := s.draws + 1 }

/-- An event of a command in progress that is not yet its completion: only the working registers move (R176). -/
def workOn (left : Nat) (s : State) : State :=
  { s with wait := left, rspValid := false, work := working s.draws, draws := s.draws + 1 }

/-- An event with no command in progress and none presented: RSP_VALID falls (R173, log 5). -/
def idle (s : State) : State := { s with rspValid := false }

/-- Reset (R170): every piece of the block's state takes its reset value (R34); a command in progress is abandoned. The
ports, the host's own data and the counter of free values are not the block's registers. -/
def resetRegs (s : State) : State :=
  { s with
    res := 0, status := 0x00, busy := false, rspValid := false
    cmdL := 0, latA := 0, latB := 0, work := [], wait := 0 }

/-- The host changes the input ports. RST acts as long as it is high, so at once (R170, log 8). -/
def drivePins (p : Pins) (s : State) : State :=
  if p.rst then resetRegs { s with pins := p } else { s with pins := p }

/-- The host reads RES as a result: a fault while RV = 0 (R31, R177), otherwise it keeps the value (R20); the block does
not notice (R46). -/
def readResult (s : State) : Host.Outcome State Fault Refusal :=
  if rvField s.statusPort then .next { s with held := s.held ++ [s.resPort] } else .fault .resultNotValid

end Sys2Proof.Machine
end

