-- ==== Sys2Proof/Machine/GcdNormalizer.lean ====
section
/-! DEFINITION. The gcd_normalizer sub-block (41_gcd_normalizer.md R90 to R94). -/

namespace Sys2Proof.Machine

open Sys2Proof.Config

/-- Euclid's loop (R90): replace (x, y) by (y, x mod y) until y = 0. The first argument bounds the number of turns. -/
def gcdLoop : Nat → Nat → Nat → Nat
  | 0, x, _ => x
  | turns + 1, x, y => if y = 0 then x else gcdLoop turns y (x % y)

/-- `Gcd(a, b)` (R90). y strictly decreases, so b turns are enough (93_implementation_defined.md section 4). Any method
gives the same value (R95, log 18). -/
def euclidGcd (a b : Nat) : Nat := gcdLoop b a b

/-- `Reduce(n, d)` (R91): exact division by the gcd, Overflow judged on the reduced values only (R92 a); a zero numerator
keeps its denominator, Overflow if that does not fit (R92 b). -/
def reduce (n d : Nat) : Answer :=
  if n = 0 then
    if d > MAX128 then .error .overflow else .ok (pack 0 d)
  else
    let g := euclidGcd n d
    if n / g > MAX128 then .error .overflow
    else if d / g > MAX128 then .error .overflow
    else .ok (pack (n / g) (d / g))

/-- REDUCE: normalise a packed word (R94). -/
def reduceWord (a : Word) : Answer := checkFrac a <| reduce (num a) (den a)

/-- REDUCE (R94). -/
def execReduce (s : State) : Host.Outcome State Fault Refusal := finish (reduceWord s.latA) s

end Sys2Proof.Machine
end

