-- ==== Sys2Proof/Machine/Adder.lean ====
section
/-! DEFINITION. The fixed_width_fraction_adder sub-block (42_adder.md R100 to R102). The intermediates are naturals, so
exact: nothing wraps (R8, R100). -/

namespace Sys2Proof.Machine

/-- ADD: a zero operand returns the other one bit for bit, otherwise the reduced sum (R101). -/
def addWords (a b : Word) : Answer :=
  checkFrac a <| checkFrac b <|
    if num a = 0 then .ok b
    else if num b = 0 then .ok a
    else reduce (num a * den b + num b * den a) (den a * den b)

/-- ADD (R101). -/
def execAdd (s : State) : Host.Outcome State Fault Refusal := finish (addWords s.latA s.latB) s

/-- SUB: the zero tests, the order test, then the reduced difference (R102). -/
def subWords (a b : Word) : Answer :=
  checkFrac a <| checkFrac b <|
    if num b = 0 then .ok a
    else if num a = 0 then .error .underflow
    else if num a * den b < num b * den a then .error .underflow
    else reduce (num a * den b - num b * den a) (den a * den b)

/-- SUB (R102). -/
def execSub (s : State) : Host.Outcome State Fault Refusal := finish (subWords s.latA s.latB) s

end Sys2Proof.Machine
end

