-- ==== Sys2Proof/Machine/Comparator.lean ====
section
/-! DEFINITION. The rational_comparator sub-block (45_comparator.md R129 to R137). -/

namespace Sys2Proof.Machine

/-- The three results of `Compare` (R130). -/
inductive Comparison where
  | less
  | equal
  | greater
  deriving DecidableEq, Repr

/-- The pair a word is compared as: a zero fraction is replaced by the canonical zero (0, 1) (R130, D15). -/
def comparedAs (w : Word) : Nat × Nat := if num w = 0 then (0, 1) else (num w, den w)

/-- `Compare(x, y)` by exact cross-multiplication (R130). -/
def compareWords (x y : Word) : Comparison :=
  let a := (comparedAs x).1 * (comparedAs y).2
  let b := (comparedAs y).1 * (comparedAs x).2
  if a < b then .less else if a = b then .equal else .greater

/-- The result code of a three-way comparison (R129). -/
def Comparison.code : Comparison → Word
  | .less => 0
  | .equal => 1
  | .greater => 2

/-- The result code of a predicate (R129). -/
def truthWord (p : Bool) : Word := if p then 1 else 0

/-- A comparator command: both operand checks, then a code of the comparison (R131 to R137). -/
def comparing (a b : Word) (code : Comparison → Word) : Answer :=
  checkFrac a <| checkFrac b <| .ok (code (compareWords a b))

/-- CMP (R131). -/
def execCmp (s : State) : Host.Outcome State Fault Refusal :=
  finish (comparing s.latA s.latB Comparison.code) s

/-- EQ (R132). -/
def execEq (s : State) : Host.Outcome State Fault Refusal :=
  finish (comparing s.latA s.latB fun c => truthWord (c == .equal)) s

/-- NE, the negation of EQ (R133). -/
def execNe (s : State) : Host.Outcome State Fault Refusal :=
  finish (comparing s.latA s.latB fun c => truthWord (c != .equal)) s

/-- LT (R134). -/
def execLt (s : State) : Host.Outcome State Fault Refusal :=
  finish (comparing s.latA s.latB fun c => truthWord (c == .less)) s

/-- LE, the negation of GT (R135). -/
def execLe (s : State) : Host.Outcome State Fault Refusal :=
  finish (comparing s.latA s.latB fun c => truthWord (c != .greater)) s

/-- GT (R136). -/
def execGt (s : State) : Host.Outcome State Fault Refusal :=
  finish (comparing s.latA s.latB fun c => truthWord (c == .greater)) s

/-- GE, the negation of LT (R137). -/
def execGe (s : State) : Host.Outcome State Fault Refusal :=
  finish (comparing s.latA s.latB fun c => truthWord (c != .less)) s

end Sys2Proof.Machine
end

