-- ==== Sys2Proof/Machine/Divider.lean ====
section
/-! DEFINITION. The fixed_width_fraction_divider sub-block (44_divider.md R120). -/

namespace Sys2Proof.Machine

/-- DIV: DivisionByZero before the zero dividend's ZERO, otherwise the reduced quotient (R120, D14). -/
def divWords (a b : Word) : Answer :=
  checkFrac a <| checkFrac b <|
    if num b = 0 then .error .divisionByZero
    else if num a = 0 then .ok zeroWord
    else reduce (num a * den b) (den a * num b)

/-- DIV (R120). -/
def execDiv (s : State) : Host.Outcome State Fault Refusal := finish (divWords s.latA s.latB) s

end Sys2Proof.Machine
end

