-- ==== Sys2Proof/Machine/Multiplier.lean ====
section
/-! DEFINITION. The fixed_width_fraction_multiplier sub-block (43_multiplier.md R110). -/

namespace Sys2Proof.Machine

/-- MUL: ZERO if an operand is zero, otherwise the reduced product (R110). -/
def mulWords (a b : Word) : Answer :=
  checkFrac a <| checkFrac b <|
    if num a = 0 ∨ num b = 0 then .ok zeroWord
    else reduce (num a * num b) (den a * den b)

/-- MUL (R110). -/
def execMul (s : State) : Host.Outcome State Fault Refusal := finish (mulWords s.latA s.latB) s

end Sys2Proof.Machine
end

