-- ==== Sys2Proof/Machine/PackUnpack.lean ====
section
/-! DEFINITION. The rational_pack_unpack sub-block (40_pack_unpack.md R73 to R78). -/

namespace Sys2Proof.Machine

/-- PACK: a word from two integers, unchecked as a fraction (R73). -/
def packWords (a b : Word) : Answer :=
  checkInt a <| checkInt b <| .ok (pack a.toNat b.toNat)

/-- PACK (R73). -/
def execPack (s : State) : Host.Outcome State Fault Refusal := finish (packWords s.latA s.latB) s

/-- UNPACKN: the numerator of any word (R74). -/
def execUnpackn (s : State) : Host.Outcome State Fault Refusal := finish (.ok (zext (num s.latA))) s

/-- UNPACKD: the stored denominator of any word (R75). -/
def execUnpackd (s : State) : Host.Outcome State Fault Refusal := finish (.ok (zext (den s.latA))) s

/-- FROMINT: an integer over denominator 1 (R76). -/
def fromIntWord (a : Word) : Answer := checkInt a <| .ok (pack a.toNat 1)

/-- FROMINT (R76). -/
def execFromint (s : State) : Host.Outcome State Fault Refusal := finish (fromIntWord s.latA) s

/-- TOINT: floor of the fraction, 0 for a zero fraction (R77). -/
def toIntWord (a : Word) : Answer :=
  checkFrac a <|
    if num a = 0 then .ok (zext 0)
    else .ok (zext (num a / den a))

/-- TOINT (R77). -/
def execToint (s : State) : Host.Outcome State Fault Refusal := finish (toIntWord s.latA) s

/-- ZERO: the canonical zero (R78). -/
def execZero (s : State) : Host.Outcome State Fault Refusal := finish (.ok zeroWord) s

end Sys2Proof.Machine
end

