-- ==== Sys2Proof/Machine/Dispatch.lean ====
section
/-! DEFINITION. `exec i s` is the completion event of command i on the latched operands (70_reset_and_hazards.md R173, R180). -/

namespace Sys2Proof.Machine

def exec (i : Instr) (s : State) : Host.Outcome State Fault Refusal :=
  match i with
  -- rational_pack_unpack
  | .pack => Sys2Proof.Machine.execPack s
  | .unpackn => Sys2Proof.Machine.execUnpackn s
  | .unpackd => Sys2Proof.Machine.execUnpackd s
  | .fromint => Sys2Proof.Machine.execFromint s
  | .toint => Sys2Proof.Machine.execToint s
  | .zero => Sys2Proof.Machine.execZero s
  -- gcd_normalizer
  | .reduce => Sys2Proof.Machine.execReduce s
  -- fixed_width_fraction_adder
  | .add => Sys2Proof.Machine.execAdd s
  | .sub => Sys2Proof.Machine.execSub s
  -- fixed_width_fraction_multiplier
  | .mul => Sys2Proof.Machine.execMul s
  -- fixed_width_fraction_divider
  | .div => Sys2Proof.Machine.execDiv s
  -- rational_comparator
  | .cmp => Sys2Proof.Machine.execCmp s
  | .eq => Sys2Proof.Machine.execEq s
  | .ne => Sys2Proof.Machine.execNe s
  | .lt => Sys2Proof.Machine.execLt s
  | .le => Sys2Proof.Machine.execLe s
  | .gt => Sys2Proof.Machine.execGt s
  | .ge => Sys2Proof.Machine.execGe s

end Sys2Proof.Machine
end

