-- ==== Sys2Proof/Machine/Protocol.lean ====
section
/-! DEFINITION. The command protocol: which event comes next (70_reset_and_hazards.md R170, R173 to R180), and the
transaction-level function `Exec` of R180. -/

namespace Sys2Proof.Machine

/-- The completion of the latched command (R173, R180): decode first (R152), an illegal word completes with
IllegalCommand and reads no operand (R53). -/
def completeCommand (s : State) : Host.Outcome State Fault Refusal :=
  match decode s.cmdL with
  | .ok i => exec i s
  | .illegal _ => finish (.error .illegalCommand) s

/-- The block's next event. Reset comes before everything (R170); a command in progress completes when its latency has
passed (R174); an idle block accepts a presented command (R173), one at a time (R175). -/
def blockEvent (s : State) : Host.Outcome State Fault Refusal :=
  if s.pins.rst then .next (resetRegs s)
  else if s.busy then
    match s.wait with
    | 0 => completeCommand s
    | left + 1 => .next (workOn left s)
  else if s.pins.reqValid then .next (accept s)
  else .next (idle s)

/-- One event of the block and its host: the host's next action, or, where the host lets it move or has nothing more to
do, the block's next event (log 7). -/
def nextEvent (s : State) : Host.Outcome State Fault Refusal :=
  match s.host with
  | [] => blockEvent s
  | .letBlockMove :: rest => blockEvent { s with host := rest }
  | .drive p :: rest => .next (drivePins p { s with host := rest })
  | .readResult :: rest => readResult { s with host := rest }

/-- A block just out of reset that has latched a command and is about to complete it. -/
def latched (cmd : CmdWord) (a b : Word) : State :=
  { State.reset with busy := true, cmdL := cmd, latA := a, latB := b }

/-- `Exec : (CMD, A, B) -> (RES, STATUS)`, the transaction-level meaning of R180: what the completion of the command
leaves in RES and STATUS. -/
def transact (cmd : CmdWord) (a b : Word) : Word × StatusWord :=
  match completeCommand (latched cmd a b) with
  | .next t => (t.resPort, t.statusPort)
  | .fault _ => (0, 0)
  | .refused _ => (0, 0)

end Sys2Proof.Machine
end

