-- ==== Sys2Proof/Machine/Step.lean ====
section
/-! DEFINITION. One step, and where it takes its next command from. -/

namespace Sys2Proof.Machine

/-- One event of the block and its host (70_reset_and_hazards.md R173, R180). -/
def step (s : State) : Host.Outcome State Fault Refusal := nextEvent s

/-- The block does not fetch: commands come on CMD and are latched (20_memory.md R49). This is the state in which the
command word has just been accepted (R173), its latency has passed, RST is low and the host leaves the block alone, so
that the next step is its completion, on the operands already in A and B (log 10). -/
def State.withFetchWord (s : State) (nbits w : Nat) : State :=
  { s with
    cmdL := tableWord nbits w, busy := true, rspValid := false, wait := 0
    pins := { s.pins with rst := false }, host := [] }

end Sys2Proof.Machine
end

