-- ==== Sys2Proof/Machine/Assembler.lean ====
section
/-! DEFINITION. The command syntax of a host and its pseudo-instructions (30_encoding.md R56, R57), at the transaction
level of R180. Lines are abstract syntax (log 15). -/

namespace Sys2Proof.Machine

open Sys2Proof.Config

/-- The 18 commands, in the order of R52. -/
def allCommands : List Instr :=
  [.pack, .unpackn, .unpackd, .fromint, .toint, .zero, .reduce, .add, .sub, .mul, .div, .cmp, .eq, .ne, .lt, .le, .gt, .ge]

/-- The mnemonics (R52). -/
def mnemonic : Instr → String
  | .pack => "PACK"
  | .unpackn => "UNPACKN"
  | .unpackd => "UNPACKD"
  | .fromint => "FROMINT"
  | .toint => "TOINT"
  | .zero => "ZERO"
  | .reduce => "REDUCE"
  | .add => "ADD"
  | .sub => "SUB"
  | .mul => "MUL"
  | .div => "DIV"
  | .cmp => "CMP"
  | .eq => "EQ"
  | .ne => "NE"
  | .lt => "LT"
  | .le => "LE"
  | .gt => "GT"
  | .ge => "GE"

/-- Mnemonics are case-insensitive (R56). -/
def ofMnemonic (name : String) : Option Instr :=
  allCommands.find? fun i => (mnemonic i).toList == name.toList.map Char.toUpper

/-- The four forms of an operand (R56). -/
inductive Operand where
  /-- a hex word, the 256-bit value itself -/
  | hex (w : Word)
  /-- `n/d`, the word Pack(n, d) as written -/
  | frac (n d : Nat)
  /-- `#k`, the 256-bit value k -/
  | int (k : Nat)
  /-- `vJ`, the RES of the earlier line J that completed with RV = 1 -/
  | name (j : Nat)
  deriving DecidableEq, Repr

/-- One line `vK = MNEMONIC opA, opB`; K is the line's place in the sequence. An ignored operand is omitted (R56). -/
structure Line where
  command : Instr
  args : List Operand
  deriving DecidableEq, Repr

/-- How many operands a line writes: those that R51 does not mark ignored (R56). -/
def arity (i : Instr) : Nat :=
  (if opaKind i = .ignored then 0 else 1) + (if opbKind i = .ignored then 0 else 1)

/-- The results of the earlier lines: a value for a line that completed with RV = 1. -/
abbrev Names := List (Option Word)

/-- The 256-bit value of an operand, if it has one (R56). -/
def Operand.value (names : Names) : Operand → Option Word
  | .hex w => some w
  | .frac n d => if n ≤ MAX128 ∧ d ≤ MAX128 then some (pack n d) else none
  | .int k => if k < 2 ^ WW then some (zext k) else none
  | .name j => (names[j]?).join

/-- The check of a line: as many operands as the command reads, each with a value. -/
def Line.wellFormed (names : Names) (l : Line) : Bool :=
  l.args.length == arity l.command && l.args.all fun a => (a.value names).isSome

/-- The two words the host drives for a line; it drives 0 on the port of an omitted operand (R56). -/
def Line.operands (names : Names) (l : Line) : Word × Word :=
  let value := fun k => ((l.args[k]?).bind (Operand.value names)).getD 0
  (value 0, value 1)

/-- RES and STATUS after the line's command completes; none for an ill-formed line (R56, R180). -/
def Line.run (names : Names) (l : Line) : Option (Word × StatusWord) :=
  if l.wellFormed names then
    some (transact (encode l.command) (l.operands names).1 (l.operands names).2)
  else none

/-- The name a line leaves for later lines: its RES if RV = 1 (R56). -/
def nameOf (r : Word × StatusWord) : Option Word := if rvField r.2 then some r.1 else none

/-- An expansion completes with the outcome of the first of its commands that fails, of its last one if none fails
(R57). -/
def runExpansion (names : Names) : List Line → Option (Word × StatusWord)
  | [] => none
  | [l] => l.run names
  | l :: l' :: rest =>
    match l.run names with
    | none => none
    | some r => if rvField r.2 then runExpansion (names ++ [nameOf r]) (l' :: rest) else some r

/-- The ten operator forms (R57), by the sign of each. -/
inductive Operator where
  /-- `+` -/
  | plus
  /-- `-` -/
  | minus
  /-- `*` -/
  | times
  /-- `/` -/
  | slash
  /-- `==` -/
  | equals
  /-- `!=` -/
  | notEquals
  /-- `<` -/
  | less
  /-- `<=` -/
  | lessEq
  /-- `>` -/
  | greater
  /-- `>=` -/
  | greaterEq
  deriving DecidableEq, Repr

/-- The command of an operator form (R57). -/
def Operator.command : Operator → Instr
  | .plus => .add
  | .minus => .sub
  | .times => .mul
  | .slash => .div
  | .equals => .eq
  | .notEquals => .ne
  | .less => .lt
  | .lessEq => .le
  | .greater => .gt
  | .greaterEq => .ge

/-- The pseudo-instructions (R57). -/
inductive Pseudo where
  /-- `x + y` and the other operator forms -/
  | op (o : Operator) (x y : Operand)
  /-- `FRAC #n, #d` -/
  | frac (n d : Nat)
  /-- `ISZERO x` -/
  | isZero (x : Operand)
  /-- `CANON x` -/
  | canon (x : Operand)
  deriving DecidableEq, Repr

/-- The commands a pseudo-instruction expands into; `at0` lines stand before it, so its temporaries t1 and t2 are the
names at0 and at0 + 1 (R57). -/
def Pseudo.expand (at0 : Nat) : Pseudo → List Line
  | .op o x y => [⟨o.command, [x, y]⟩]
  | .frac n d => [⟨.fromint, [.int n]⟩, ⟨.fromint, [.int d]⟩, ⟨.div, [.name at0, .name (at0 + 1)]⟩]
  | .isZero x => [⟨.eq, [x, .hex 1]⟩]
  | .canon x => [⟨.reduce, [x]⟩]

/-- RES and STATUS after a pseudo-instruction (R57). -/
def Pseudo.run (names : Names) (p : Pseudo) : Option (Word × StatusWord) :=
  runExpansion names (p.expand names.length)

end Sys2Proof.Machine
end

