-- ==== Sys2Proof/Machine/Instances.lean ====
section
/-! DEFINITION. Several instances of the block on one platform: they share nothing (20_memory.md R39, 60_exceptions.md R159). -/

namespace Sys2Proof.Machine

/-- The instances of a platform. They have no identifiers of their own (R159); the place in the list is the model's.
That their latencies are drawn from one constant, each at its own counter, is the model's too (log 20). -/
abbrev Platform := List State

/-- One event of instance k; no instance k means no event. Which instance moves next is the caller's: no rule orders
completions in different instances (R39, log 14). DESIGN CHOICE (log 19, safe): the spec is silent on what a host's
faulting read in one instance does to the others; here the whole platform's event ends in that fault. -/
def stepInstance (k : Nat) (ps : Platform) : Host.Outcome Platform Fault Refusal :=
  match ps[k]? with
  | none => .next ps
  | some s =>
    match step s with
    | .next t => .next (ps.set k t)
    | .fault f => .fault f
    | .refused r => .refused r

end Sys2Proof.Machine
end

