-- ==== Sys2Proof/Machine/Serial.lean ====
section
/-! DEFINITION. Serialised forms of a word, outside the block (20_memory.md R44). The byte order is the open parameter
HOST_BYTE_ORDER: an argument here, never a choice (D24, log 12). -/

namespace Sys2Proof.Machine

/-- A byte order of the 32 bytes of a word: which byte of the word (0 holds bits [7:0]) stands at each place. -/
abbrev ByteOrder := List Nat

/-- Every byte of the word stands at exactly one place. -/
def byteOrderLegal (o : ByteOrder) : Bool := o.length == 32 && (List.range 32).all fun k => o.contains k

/-- Byte k of a word: bits [8k+7:8k]. -/
def wordByte (w : Word) (k : Nat) : Byte := w.extractLsb' (8 * k) 8

/-- The serialised form of a word in an order. -/
def serialize (o : ByteOrder) (w : Word) : List Byte := o.map (wordByte w)

/-- The integer a host rebuilds from bytes and the places they stand for (R44). -/
def rebuild : ByteOrder → List Byte → Nat
  | k :: ks, b :: bs => b.toNat * 2 ^ (8 * k) + rebuild ks bs
  | _, _ => 0

/-- The word a host rebuilds from a serialised form (R44). -/
def deserialize (o : ByteOrder) (bytes : List Byte) : Word := zext (rebuild o bytes)

end Sys2Proof.Machine
end

