-- ==== Sys2Proof/Safety.lean ====
section
/-! DEFINITION. What the claims speak of: the spec's quantities written as plain numbers, apart from the model's own
operations, and the invariant of the block. -/

namespace Sys2Proof.Safety

open Sys2Proof.Machine

/-- The numerator of a word: its high 128 bits, as a number (10_state.md R22). -/
def N (w : Word) : Nat := w.toNat / 2 ^ 128

/-- The denominator of a word: its low 128 bits, as a number (R22). -/
def D (w : Word) : Nat := w.toNat % 2 ^ 128

/-- The word n·2^128 + d (R22). -/
def wordOf (n d : Nat) : Word := BitVec.ofNat 256 (n * 2 ^ 128 + d)

/-- A valid word: not malformed (R25). -/
abbrev Valid (w : Word) : Prop := N w = 0 ∨ D w ≠ 0

/-- The state after a command completed without error with result v; all else is as before (60_exceptions.md R155). -/
def returns (v : Word) (s : State) : State :=
  { s with res := v, status := 0x08, busy := false, rspValid := true }

/-- The state after a command completed with the error of this code; all else is as before (R154). -/
def raises (code : Nat) (s : State) : State :=
  { s with res := 0, status := BitVec.ofNat 8 code, busy := false, rspValid := true }

/-- Completion with the fraction n/d in lowest terms (n ≠ 0), or with Overflow where a reduced field exceeds 128 bits
(41_gcd_normalizer.md R91, R92 a). -/
def returnsReduced (n d : Nat) (s : State) : State :=
  if n / Nat.gcd n d < 2 ^ 128 ∧ d / Nat.gcd n d < 2 ^ 128 then returns (wordOf (n / Nat.gcd n d) (d / Nat.gcd n d)) s
  else raises 1 s

/-- The completion of a predicate: 1 for true, 0 for false (45_comparator.md R129). -/
def returnsTruth (p : Prop) [Decidable p] (s : State) : State := returns (if p then 1 else 0) s

/-- x < y as rational values; zero fractions of any denominator count as 0 (R130). -/
abbrev Less (x y : Word) : Prop :=
  if N x = 0 then N y ≠ 0 else N y ≠ 0 ∧ N x * D y < N y * D x

/-- x = y as rational values; zero fractions of any denominator are equal (R130). -/
abbrev Same (x y : Word) : Prop :=
  if N x = 0 then N y = 0 else N y ≠ 0 ∧ N x * D y = N y * D x

/-- STATUS.ERR as a number (R30). -/
def errOf (st : StatusWord) : Nat := st.toNat % 8

/-- STATUS.RV (R30). -/
abbrev RV (st : StatusWord) : Prop := st.toNat / 8 % 2 = 1

/-- The block's observable registers are at their reset values (R34). -/
abbrev AtReset (s : State) : Prop := s.res = 0 ∧ s.status = 0 ∧ s.busy = false ∧ s.rspValid = false

/-- The invariant of the block: the reserved bits of STATUS are 0, ERR is 0 to 5, RV excludes an error (R30), RES is 0
while RV = 0 (R31), the registers are at reset while RST is high (R170), and RSP_VALID means an idle block whose last
command left its mark in STATUS (R155, R154). -/
def BlockInv (s : State) : Prop :=
  s.status.toNat < 16 ∧ errOf s.status ≤ 5 ∧ (RV s.status → errOf s.status = 0) ∧ (¬ RV s.status → s.res = 0) ∧
    (s.pins.rst = true → AtReset s) ∧ (s.rspValid = true → s.busy = false ∧ s.status ≠ 0)

/-- The next event of the state is the block's own: the host has nothing to do or lets it move. -/
def BlockMoves (s : State) (rest : List HostAction) : Prop :=
  (s.host = [] ∧ rest = []) ∨ s.host = .letBlockMove :: rest

/-- A host that never raises RST, and reads RES as a result only where the registers hold a valid one. -/
def patient (valid : Bool) (hs : List HostAction) : Bool :=
  hs.all fun a => match a with
    | .letBlockMove => true
    | .drive p => !p.rst
    | .readResult => valid

/-- The command word of each command, as spec/opcode_table.json lists it (30_encoding.md R52). -/
def tableMatch : Instr → Nat
  | .pack => 0x00000001
  | .unpackn => 0x00000002
  | .unpackd => 0x00000003
  | .fromint => 0x00000004
  | .toint => 0x00000005
  | .zero => 0x00000006
  | .reduce => 0x00000008
  | .add => 0x00000010
  | .sub => 0x00000011
  | .mul => 0x00000018
  | .div => 0x00000020
  | .cmp => 0x00000028
  | .eq => 0x00000029
  | .ne => 0x0000002A
  | .lt => 0x0000002B
  | .le => 0x0000002C
  | .gt => 0x0000002D
  | .ge => 0x0000002E

/-- The unassigned opcodes, as R53 lists them. -/
abbrev Unassigned (o : Nat) : Prop :=
  o = 0x00 ∨ o = 0x07 ∨ (0x09 ≤ o ∧ o ≤ 0x0F) ∨ (0x12 ≤ o ∧ o ≤ 0x17) ∨ (0x19 ≤ o ∧ o ≤ 0x1F) ∨ (0x21 ≤ o ∧ o ≤ 0x27) ∨
    o = 0x2F ∨ (0x30 ≤ o ∧ o ≤ 0xFF)

/-- The error codes each command can complete with (60_exceptions.md R151). -/
def errorRow : Instr → List Nat
  | .pack => [4]
  | .unpackn => []
  | .unpackd => []
  | .fromint => [4]
  | .toint => [4]
  | .zero => []
  | .reduce => [4]
  | .add => [1, 4]
  | .sub => [1, 2, 4]
  | .mul => [1, 4]
  | .div => [1, 3, 4]
  | .cmp => [4]
  | .eq => [4]
  | .ne => [4]
  | .lt => [4]
  | .le => [4]
  | .gt => [4]
  | .ge => [4]

/-- The rational number a valid word stands for (R22, R130); every zero fraction stands for 0. -/
def value (w : Word) : ℚ := (N w : ℚ) / (D w : ℚ)

/-- A valid word that is a zero fraction or in lowest terms (R25, R93 b). -/
def LowestTerms (w : Word) : Prop := Valid w ∧ (N w ≠ 0 → Nat.gcd (N w) (D w) = 1)

/-- RES after the command on x and y (70_reset_and_hazards.md R180). -/
def resultOf (i : Instr) (x y : Word) : Word := (transact (encode i) x y).1

/-- STATUS after the command on x and y (R180). -/
def statusAfter (i : Instr) (x y : Word) : StatusWord := (transact (encode i) x y).2

/-- The command on x and y completes without error. -/
abbrev Succeeds (i : Instr) (x y : Word) : Prop := statusAfter i x y = 0x08

end Sys2Proof.Safety
end

