-- ==== Sys2Proof/Certificates/Slice0/Obligations.lean ====
section
/-! DEFINITION. The statements. `returns`, `raises`, `N`, `D`, `Valid` and the other words they are written in are
Safety.lean's: plain numbers, apart from the model's own operations. Where a statement says that `exec` answers
`returns v s` or `raises c s`, it says all of the next state: every field but RES, STATUS, BUSY and RSP_VALID is as
before, so it is the command's frame as well. -/

open Sys2Proof Sys2Proof.Machine Sys2Proof.Safety

/-! ## Encoding -/

/-- 30_encoding.md R52, R55: a word decodes to a command exactly when it is that command's word in the opcode table, and
every word has exactly one outcome, a command or an illegal word. -/
def Obligations.DecodeMatchesOpcodeTable : Prop :=
  ∀ w : CmdWord, (∀ i, decode w = .ok i ↔ w.toNat = tableMatch i) ∧
    ((∃ why, decode w = .illegal why) ↔ ∀ i, w.toNat ≠ tableMatch i)

/-- Decoding and encoding are inverse to one another: every command has its word, and no other word reads as it. -/
def Obligations.EncodeDecodeAgree : Prop :=
  (∀ i, decode (encode i) = .ok i) ∧ (∀ w i, decode w = .ok i → encode i = w) ∧
    (∀ i, decodeTableWord 32 (encode i).toNat = some i) ∧
    (∀ i j, encode i = encode j → i = j)

/-- Words written out from R52, one of each sub-block, and the illegal words of 95_test_vectors.md. -/
def Obligations.DecodeReadsWrittenWords : Prop :=
  decode 0x00000001#32 = .ok .pack ∧ decode 0x00000008#32 = .ok .reduce ∧ decode 0x00000011#32 = .ok .sub ∧
    decode 0x00000018#32 = .ok .mul ∧ decode 0x00000020#32 = .ok .div ∧ decode 0x0000002C#32 = .ok .le ∧
    decode 0x00000000#32 = .illegal .opcodeUnassigned ∧ decode 0x00000110#32 = .illegal .reservedBitsSet

/-- R53: a word with an unassigned opcode or a reserved bit set is illegal, the all-zero word among them, no other word
is, and an illegal command completes with IllegalCommand whatever its operands. -/
def Obligations.IllegalWordsCompleteWithCode5 : Prop :=
  (∀ w : CmdWord, (∃ why, decode w = .illegal why) ↔ (Unassigned (w.toNat % 256) ∨ w.toNat / 256 ≠ 0)) ∧
    (∃ why, decode 0x00000000#32 = .illegal why) ∧
    (∀ s : State, (Unassigned (s.cmdL.toNat % 256) ∨ s.cmdL.toNat / 256 ≠ 0) →
      completeCommand s = .next (raises 5 s))

/-- The well-formedness check of WellFormed.lean, written from R52's ranges, accepts exactly the words that decode. -/
def Obligations.WellFormedWordsAreThoseThatDecode : Prop :=
  ∀ w : CmdWord, commandWellFormed w = true ↔ ∃ i, decode w = .ok i

/-! ## The step and the protocol -/

/-- A due command (that a command is due when `wait` is 0 is the model's form of LATENCY, log 3) that decodes to i is run
by the step: exec of i, the host's action (if any, log 7) taken off its list; an illegal one completes with code 5. -/
def Obligations.StepRunsDecodedCommand : Prop :=
  ∀ (s : State) (rest : List HostAction), BlockMoves s rest → s.pins.rst = false → s.busy = true → s.wait = 0 →
    (∀ i, decode s.cmdL = .ok i → step s = exec i { s with host := rest }) ∧
      (∀ why, decode s.cmdL = .illegal why → step s = .next (raises 5 { s with host := rest }))

/-- 70_reset_and_hazards.md R173, acceptance: an idle block out of reset that is presented a command samples CMD, OPA and
OPB together and sets BUSY; RES and STATUS stay. Latency and working registers are free values (log 3, log 4): some value
of each. RSP_VALID falls (log 5); REQ_READY is log 6's. -/
def Obligations.StepAcceptsPresentedCommand : Prop :=
  ∀ (s : State) (rest : List HostAction), BlockMoves s rest → s.reqReady = true → s.pins.reqValid = true →
    ∃ (latency draws : Nat) (working : List Nat),
      step s = .next { s with
        host := rest, busy := true, rspValid := false, cmdL := s.pins.cmd, latA := s.pins.opa, latB := s.pins.opb
        wait := latency, work := working, draws := draws }

/-- Before its completion a command in progress changes nothing observable (R176), and an idle block without a request
changes nothing (R173); RSP_VALID falls. The model's choices: a waiting step counts `wait` down by one (log 3), redraws the
working registers and so moves `draws` (log 4, log 3), and RSP_VALID falls at the next event (log 5). -/
def Obligations.StepWithoutEventKeepsRegisters : Prop :=
  (∀ (s : State) (rest : List HostAction) (n : Nat), BlockMoves s rest → s.pins.rst = false → s.busy = true →
      s.wait = n + 1 → ∃ (working : List Nat) (draws : Nat),
        step s = .next { s with host := rest, rspValid := false, wait := n, work := working, draws := draws }) ∧
    (∀ (s : State) (rest : List HostAction), BlockMoves s rest → s.reqReady = true → s.pins.reqValid = false →
      step s = .next { s with host := rest, rspValid := false })

/-- R176: RES and STATUS change at a completion or a reset only (a reset acts in the step that raises RST, log 8). -/
def Obligations.RegistersChangeOnlyAtCompletionOrReset : Prop :=
  ∀ s t : State, step s = .next t → (t.res ≠ s.res ∨ t.status ≠ s.status) →
    (s.busy = true ∧ s.wait = 0 ∧ s.pins.rst = false ∧ t.busy = false ∧ t.rspValid = true) ∨
      (t.pins.rst = true ∧ AtReset t)

/-- R173, R175: the latched command and operands change only when an idle block out of reset accepts what the ports now
present (or at a reset): a command presented while BUSY, or withdrawn before acceptance, never gets in. -/
def Obligations.LatchesChangeOnlyAtAcceptanceOrReset : Prop :=
  ∀ s t : State, step s = .next t → (t.cmdL ≠ s.cmdL ∨ t.latA ≠ s.latA ∨ t.latB ≠ s.latB) →
    (s.reqReady = true ∧ s.pins.reqValid = true ∧ t.busy = true ∧
        t.cmdL = s.pins.cmd ∧ t.latA = s.pins.opa ∧ t.latB = s.pins.opb) ∨
      (t.pins.rst = true ∧ AtReset t)

/-- R170: whatever the block is doing (a completion due included), RST high brings the registers to their reset values and
REQ_READY to 0 and leaves no command in progress; every further event while RST is high does the same; when RST returns to
0 the values stay and REQ_READY is 1. Power-on is the same state. That RST acts in the very step in which the host raises it
is log 8, REQ_READY is log 6's. -/
def Obligations.ResetAbandonsCommand : Prop :=
  (∀ (s : State) (p : Pins) (rest : List HostAction), s.host = .drive p :: rest → p.rst = true →
      ∃ t, step s = .next t ∧ AtReset t ∧ t.reqReady = false ∧ t.pins = p ∧ t.host = rest) ∧
    (∀ (s : State) (rest : List HostAction), BlockMoves s rest → s.pins.rst = true →
      ∃ t, step s = .next t ∧ AtReset t ∧ t.reqReady = false ∧ t.pins = s.pins ∧ t.host = rest) ∧
    (∀ (s : State) (p : Pins) (rest : List HostAction), s.host = .drive p :: rest → p.rst = false → AtReset s →
      ∃ t, step s = .next t ∧ AtReset t ∧ t.reqReady = true ∧ t.pins = p ∧ t.host = rest) ∧
    (AtReset State.reset ∧ State.reset.reqReady = true)

/-- R174: an accepted command completes, after a number of steps bounded by its (finite, free) latency and the host's
actions, with the result of R180's Exec, whatever a host that raises no RST does to the ports
meanwhile; it may read RES too, where an earlier result is still valid (R176, R177). That latency is the count `wait` is the model's form of it (log 3), the host's list is log 7. -/
def Obligations.AcceptedCommandCompletes : Prop :=
  ∀ s : State, s.busy = true → s.pins.rst = false → patient (RV s.status) s.host = true →
    ∃ k ≤ s.host.length + s.wait + 1, ∃ t : State, Sys2Proof.core.run k s = .next t ∧ t.busy = false ∧
      t.rspValid = true ∧ (t.res, t.status) = transact s.cmdL s.latA s.latB

/-- R180: from every state, RES and STATUS after the completion event are a function of (CMD_L, A, B) alone, and nothing
else of the block changes but BUSY and RSP_VALID. -/
def Obligations.CompletionDependsOnLatchesOnly : Prop :=
  ∀ s : State, completeCommand s = .next { s with
    busy := false, rspValid := true
    res := (transact s.cmdL s.latA s.latB).1, status := (transact s.cmdL s.latA s.latB).2 }

/-- R178: after acceptance the host may change CMD, OPA and OPB (and REQ_VALID); the accepted command does not notice
(events in the order of log 7). -/
def Obligations.PortsDoNotReachAcceptedCommand : Prop :=
  ∀ (s t : State) (p : Pins) (rest : List HostAction), BlockMoves s rest → s.busy = true → s.pins.rst = false →
    p.rst = false → step s = .next t → step { s with pins := p } = .next { t with pins := p }

/-- R177: the host's read of RES as a result faults while RV = 0; while RV = 1 it gives RES and changes nothing of the
block (the fault and `held`, the host's own list, are the model's form of it, log 9). -/
def Obligations.ReadingResultNeedsRV : Prop :=
  ∀ (s : State) (rest : List HostAction), s.host = .readResult :: rest →
    (¬ RV s.status → step s = .fault .resultNotValid) ∧
      (RV s.status → step s = .next { s with host := rest, held := s.held ++ [s.res] })

/-- 10_state.md R30: through the STATUS port the reserved bits read 0 in every state, and the two fields are bits [2:0] and
bit 3. -/
def Obligations.StatusPortReadsItsTwoFields : Prop :=
  ∀ s : State, s.statusPort.toNat < 16 ∧ (errField s.statusPort).toNat = errOf s.status ∧
    (rvField s.statusPort = true ↔ RV s.status) ∧ s.resPort = s.res

/-- 10_state.md R34: the reset values, and that what the latches and working registers of an idle block hold is never
read: any other contents give the same step, but for those fields, until an acceptance overwrites them. -/
def Obligations.ResetValuesAndHiddenLatches : Prop :=
  (State.reset.res = 0 ∧ State.reset.status = 0x00 ∧ State.reset.busy = false ∧ State.reset.reqReady = true ∧
      State.reset.rspValid = false) ∧
    (∀ (s : State) (c : CmdWord) (a b : Word) (w : List Nat), s.busy = false →
      let s' := { s with cmdL := c, latA := a, latB := b, work := w }
      (∀ f, step s = .fault f → step s' = .fault f) ∧
        (∀ t, step s = .next t → step s' = .next t ∨
          (t.busy = false ∧ step s' = .next { t with cmdL := c, latA := a, latB := b, work := w })))

/-- The invariant holds at reset. -/
def Obligations.ResetMeetsBlockInv : Prop := BlockInv State.reset

/-- Every step keeps the invariant, from every state that meets it: reserved STATUS bits 0, ERR 0 to 5, RV excludes an
error (R30), RES = 0 while RV = 0 (R31), registers at reset while RST is high (R170, log 8), RSP_VALID only on an idle block
whose last command left its mark in STATUS (log 5). -/
def Obligations.StepKeepsBlockInv : Prop :=
  ∀ s t : State, BlockInv s → step s = .next t → BlockInv t

/-- 20_memory.md R39: an event of one instance leaves every other instance as it was, and is that instance's own step
(instances as a list: log 14). -/
def Obligations.InstancesAreIndependent : Prop :=
  ∀ (ps qs : Platform) (k : Nat), stepInstance k ps = .next qs →
    (∀ j, j ≠ k → qs[j]? = ps[j]?) ∧ (∀ s, ps[k]? = some s → ∃ t, step s = .next t ∧ qs[k]? = some t)

/-! ## Errors -/

/-- 60_exceptions.md R154, R155, R156: every command completes from every state, in one of two ways: with a result, or with
one error code and RES = 0; nothing but RES, STATUS, BUSY and RSP_VALID changes. -/
def Obligations.EveryCommandCompletesOneOfTwoWays : Prop :=
  ∀ (i : Instr) (s : State), ∃ t, exec i s = .next t ∧
    ((∃ v, t = returns v s) ∨ ∃ c, 1 ≤ c ∧ c ≤ 4 ∧ t = raises c s)

/-- R151: a command raises only the errors of its row, each error of its row on some operands; an illegal CMD raises
IllegalCommand. -/
def Obligations.CommandsRaiseExactlyTheErrorsOfTheTable : Prop :=
  (∀ i s, ∃ t, exec i s = .next t ∧ (errOf t.status = 0 ∨ errOf t.status ∈ errorRow i)) ∧
    (∀ i, ∀ c ∈ errorRow i, ∃ s t, exec i s = .next t ∧ errOf t.status = c) ∧
    (∀ w a b why, decode w = .illegal why → transact w a b = (0, 0x05))

/-- 30_encoding.md R51, 60_exceptions.md R152: a command completes with InvalidOperand exactly when an operand fails the
check of the way the command reads it, before any other error; an operand it ignores may hold anything. -/
def Obligations.OperandChecksComeFirst : Prop :=
  ∀ (i : Instr) (s t : State), exec i s = .next t →
    (errOf t.status = 4 ↔ ¬ (operandOk (opaKind i) s.latA = true ∧ operandOk (opbKind i) s.latB = true)) ∧
      (∀ w, opaKind i = .ignored → exec i { s with latA := w } = .next { t with latA := w }) ∧
      (∀ w, opbKind i = .ignored → exec i { s with latB := w } = .next { t with latB := w })

/-- 60_exceptions.md R156, R157: what an earlier completion left in RES, STATUS and RSP_VALID does not reach the next one. -/
def Obligations.StatusIsNotSticky : Prop :=
  ∀ (i : Instr) (s : State) (r : Word) (st : StatusWord) (v : Bool),
    exec i { s with res := r, status := st, rspValid := v } = exec i s

/-! ## The commands -/

/-- 40_pack_unpack.md R73. -/
def Obligations.PackBuildsWord : Prop :=
  encode .pack = 0x00000001 ∧ ∀ s : State, exec .pack s = .next (
    if 2 ^ 128 ≤ s.latA.toNat ∨ 2 ^ 128 ≤ s.latB.toNat then raises 4 s
    else returns (wordOf s.latA.toNat s.latB.toNat) s)

/-- R74. -/
def Obligations.UnpacknReturnsNumerator : Prop :=
  encode .unpackn = 0x00000002 ∧ ∀ s : State, exec .unpackn s = .next (returns (BitVec.ofNat 256 (N s.latA)) s)

/-- R75. -/
def Obligations.UnpackdReturnsDenominator : Prop :=
  encode .unpackd = 0x00000003 ∧ ∀ s : State, exec .unpackd s = .next (returns (BitVec.ofNat 256 (D s.latA)) s)

/-- R76. -/
def Obligations.FromintLiftsInteger : Prop :=
  encode .fromint = 0x00000004 ∧ ∀ s : State, exec .fromint s = .next (
    if 2 ^ 128 ≤ s.latA.toNat then raises 4 s else returns (wordOf s.latA.toNat 1) s)

/-- R77. -/
def Obligations.TointTruncates : Prop :=
  encode .toint = 0x00000005 ∧ ∀ s : State, exec .toint s = .next (
    if ¬ Valid s.latA then raises 4 s
    else if N s.latA = 0 then returns 0 s
    else returns (BitVec.ofNat 256 (N s.latA / D s.latA)) s)

/-- R78. -/
def Obligations.ZeroReturnsCanonicalZero : Prop :=
  encode .zero = 0x00000006 ∧ ∀ s : State, exec .zero s = .next (returns 1 s)

/-- 41_gcd_normalizer.md R94. A zero fraction comes back bit for bit; REDUCE never overflows. -/
def Obligations.ReduceNormalisesWord : Prop :=
  encode .reduce = 0x00000008 ∧ ∀ s : State, exec .reduce s = .next (
    if ¬ Valid s.latA then raises 4 s
    else if N s.latA = 0 then returns s.latA s
    else returns (wordOf (N s.latA / Nat.gcd (N s.latA) (D s.latA)) (D s.latA / Nat.gcd (N s.latA) (D s.latA))) s)

/-- 42_adder.md R101. -/
def Obligations.AddReturnsReducedSum : Prop :=
  encode .add = 0x00000010 ∧ ∀ s : State, exec .add s = .next (
    if ¬ Valid s.latA ∨ ¬ Valid s.latB then raises 4 s
    else if N s.latA = 0 then returns s.latB s
    else if N s.latB = 0 then returns s.latA s
    else returnsReduced (N s.latA * D s.latB + N s.latB * D s.latA) (D s.latA * D s.latB) s)

/-- R102. Equal non-zero values leave a zero over the product of the denominators, or overflow. -/
def Obligations.SubReturnsReducedDifference : Prop :=
  encode .sub = 0x00000011 ∧ ∀ s : State, exec .sub s = .next (
    if ¬ Valid s.latA ∨ ¬ Valid s.latB then raises 4 s
    else if N s.latB = 0 then returns s.latA s
    else if N s.latA = 0 then raises 2 s
    else if N s.latA * D s.latB < N s.latB * D s.latA then raises 2 s
    else if N s.latA * D s.latB = N s.latB * D s.latA then
      (if D s.latA * D s.latB < 2 ^ 128 then returns (wordOf 0 (D s.latA * D s.latB)) s else raises 1 s)
    else returnsReduced (N s.latA * D s.latB - N s.latB * D s.latA) (D s.latA * D s.latB) s)

/-- 43_multiplier.md R110. -/
def Obligations.MulReturnsReducedProduct : Prop :=
  encode .mul = 0x00000018 ∧ ∀ s : State, exec .mul s = .next (
    if ¬ Valid s.latA ∨ ¬ Valid s.latB then raises 4 s
    else if N s.latA = 0 ∨ N s.latB = 0 then returns 1 s
    else returnsReduced (N s.latA * N s.latB) (D s.latA * D s.latB) s)

/-- 44_divider.md R120. -/
def Obligations.DivReturnsReducedQuotient : Prop :=
  encode .div = 0x00000020 ∧ ∀ s : State, exec .div s = .next (
    if ¬ Valid s.latA ∨ ¬ Valid s.latB then raises 4 s
    else if N s.latB = 0 then raises 3 s
    else if N s.latA = 0 then returns 1 s
    else returnsReduced (N s.latA * D s.latB) (D s.latA * N s.latB) s)

/-- 45_comparator.md R131. -/
def Obligations.CmpOrdersByValue : Prop :=
  encode .cmp = 0x00000028 ∧ ∀ s : State, exec .cmp s = .next (
    if ¬ Valid s.latA ∨ ¬ Valid s.latB then raises 4 s
    else returns (if Less s.latA s.latB then 0 else if Same s.latA s.latB then 1 else 2) s)

/-- R132. -/
def Obligations.EqTestsEqualValue : Prop :=
  encode .eq = 0x00000029 ∧ ∀ s : State, exec .eq s = .next (
    if ¬ Valid s.latA ∨ ¬ Valid s.latB then raises 4 s else returnsTruth (Same s.latA s.latB) s)

/-- R133. -/
def Obligations.NeTestsDifferentValue : Prop :=
  encode .ne = 0x0000002A ∧ ∀ s : State, exec .ne s = .next (
    if ¬ Valid s.latA ∨ ¬ Valid s.latB then raises 4 s else returnsTruth (¬ Same s.latA s.latB) s)

/-- R134. -/
def Obligations.LtTestsSmallerValue : Prop :=
  encode .lt = 0x0000002B ∧ ∀ s : State, exec .lt s = .next (
    if ¬ Valid s.latA ∨ ¬ Valid s.latB then raises 4 s else returnsTruth (Less s.latA s.latB) s)

/-- R135. -/
def Obligations.LeTestsNotGreaterValue : Prop :=
  encode .le = 0x0000002C ∧ ∀ s : State, exec .le s = .next (
    if ¬ Valid s.latA ∨ ¬ Valid s.latB then raises 4 s else returnsTruth (¬ Less s.latB s.latA) s)

/-- R136. -/
def Obligations.GtTestsGreaterValue : Prop :=
  encode .gt = 0x0000002D ∧ ∀ s : State, exec .gt s = .next (
    if ¬ Valid s.latA ∨ ¬ Valid s.latB then raises 4 s else returnsTruth (Less s.latB s.latA) s)

/-- R137. -/
def Obligations.GeTestsNotSmallerValue : Prop :=
  encode .ge = 0x0000002E ∧ ∀ s : State, exec .ge s = .next (
    if ¬ Valid s.latA ∨ ¬ Valid s.latB then raises 4 s else returnsTruth (¬ Less s.latA s.latB) s)

/-! ## Primitives and laws -/

/-- 40_pack_unpack.md R72: the codec is a bijection. -/
def Obligations.CodecIsBijection : Prop :=
  (∀ n d, n ≤ Config.MAX128 → d ≤ Config.MAX128 → num (pack n d) = n ∧ den (pack n d) = d) ∧
    ∀ w : Word, pack (num w) (den w) = w

/-- R79: FROMINT of u then TOINT gives u back, and both succeed; the ignored OPB may hold anything. -/
def Obligations.FromintTointRoundTrip : Prop :=
  ∀ (u : Nat) (y z : Word), u ≤ Config.MAX128 →
    Succeeds .fromint (BitVec.ofNat 256 u) y ∧
      transact (encode .toint) (resultOf .fromint (BitVec.ofNat 256 u) y) z = (BitVec.ofNat 256 u, 0x08)

/-- 41_gcd_normalizer.md R90: the loop computes the greatest common divisor. -/
def Obligations.GcdIsGreatestCommonDivisor : Prop :=
  ∀ a b : Nat, 1 ≤ a →
    euclidGcd a b = Nat.gcd a b ∧ 1 ≤ euclidGcd a b ∧ euclidGcd a 0 = a ∧ (a < b → euclidGcd a b = euclidGcd b a) ∧
      (b ≠ 0 → euclidGcd a b = euclidGcd b (a % b))

/-- R91: Reduce, as the spec gives it, on every pair the commands can call it with. -/
def Obligations.ReduceComputesLowestTerms : Prop :=
  ∀ n d : Nat, (n ≠ 0 → d ≠ 0) →
    reduce n d =
      if n = 0 then (if 2 ^ 128 ≤ d then .error .overflow else .ok (wordOf 0 d))
      else if 2 ^ 128 ≤ n / Nat.gcd n d ∨ 2 ^ 128 ≤ d / Nat.gcd n d then .error .overflow
      else .ok (wordOf (n / Nat.gcd n d) (d / Nat.gcd n d))

/-- R93 (a) to (e): Reduce keeps the value, leaves lowest terms, passes a zero numerator on, is idempotent, and depends on
the value n/d alone. -/
def Obligations.ReduceKeepsValue : Prop :=
  (∀ n d w, (n ≠ 0 → 1 ≤ d) → reduce n d = .ok w →
      N w * d = n * D w ∧ (n ≠ 0 → 1 ≤ N w ∧ 1 ≤ D w ∧ Nat.gcd (N w) (D w) = 1) ∧ (n = 0 → w = wordOf 0 d)) ∧
    (∀ n d, n < 2 ^ 128 → d < 2 ^ 128 → n ≠ 0 → Nat.gcd n d = 1 → reduce n d = .ok (wordOf n d)) ∧
    (∀ n d n' d', n ≠ 0 → n' ≠ 0 → 1 ≤ d → 1 ≤ d' → n * d' = n' * d → reduce n d = reduce n' d')

/-- 42_adder.md R103, for valid words. -/
def Obligations.AdderLaws : Prop :=
  ∀ x y : Word, Valid x → Valid y →
    (statusAfter .add x y = statusAfter .add y x ∧
      (Succeeds .add x y → resultOf .eq (resultOf .add x y) (resultOf .add y x) = 1) ∧
      (¬ (N x = 0 ∧ N y = 0 ∧ x ≠ y) → resultOf .add x y = resultOf .add y x)) ∧
    (Succeeds .add x 1 ∧ (N x ≠ 0 → resultOf .add x 1 = x) ∧
      (N x = 0 → resultOf .add x 1 = 1 ∧ resultOf .eq 1 x = 1)) ∧
    (Succeeds .sub x y → statusAfter .add (resultOf .sub x y) y ≠ 0x01 →
      resultOf .eq (resultOf .add (resultOf .sub x y) y) x = 1) ∧
    (Less x y → statusAfter .sub x y = 0x02)

/-- 43_multiplier.md R111, for valid words, with the example of its rationale. -/
def Obligations.MultiplierLaws : Prop :=
  ∀ x y : Word, Valid x → Valid y →
    transact (encode .mul) x y = transact (encode .mul) y x ∧
      transact (encode .mul) x 1 = (1, 0x08) ∧
      (N x ≠ 0 → transact (encode .mul) x (wordOf 1 1) =
        (wordOf (N x / Nat.gcd (N x) (D x)) (D x / Nat.gcd (N x) (D x)), 0x08)) ∧
      transact (encode .mul) (wordOf 0 Config.MAX128) (wordOf 1 Config.MAX128) = (1, 0x08)

/-- 44_divider.md R121, for valid words. -/
def Obligations.DividerLaws : Prop :=
  ∀ x y : Word, Valid x → Valid y → N y ≠ 0 →
    transact (encode .div) 1 y = (1, 0x08) ∧
      (Succeeds .div x y → Succeeds .mul (resultOf .div x y) y →
        resultOf .eq (resultOf .mul (resultOf .div x y) y) x = 1) ∧
      (Succeeds .div x y →
        N (resultOf .div x y) * (D x * N y) = N x * D y * D (resultOf .div x y) ∧
          Nat.gcd (N (resultOf .div x y)) (D (resultOf .div x y)) = 1 ∧ (N x = 0 → resultOf .div x y = 1))

/-- 45_comparator.md R138, for valid words. -/
def Obligations.ComparatorLaws : Prop :=
  ∀ x y z : Word, Valid x → Valid y → Valid z →
    ((resultOf .lt x y).toNat + (resultOf .eq x y).toNat + (resultOf .gt x y).toNat = 1) ∧
    ((resultOf .le x y).toNat = 1 - (resultOf .gt x y).toNat ∧ (resultOf .ge x y).toNat = 1 - (resultOf .lt x y).toNat ∧
      (resultOf .ne x y).toNat = 1 - (resultOf .eq x y).toNat) ∧
    ((resultOf .cmp x y).toNat = 2 - (resultOf .cmp y x).toNat) ∧
    (resultOf .eq x x = 1 ∧ (resultOf .eq x y = 1 → resultOf .eq y x = 1) ∧
      (resultOf .eq x y = 1 → resultOf .eq y z = 1 → resultOf .eq x z = 1)) ∧
    (resultOf .lt x x = 0 ∧ (resultOf .lt x y = 1 → resultOf .lt y z = 1 → resultOf .lt x z = 1) ∧
      (resultOf .eq x y ≠ 1 → resultOf .lt x y = 1 ∨ resultOf .lt y x = 1) ∧
      (resultOf .eq x y = 1 → resultOf .lt x z = resultOf .lt y z ∧ resultOf .lt z x = resultOf .lt z y))

/-- 10_state.md R27: on operands in lowest terms every arithmetic command that succeeds leaves lowest terms; on any valid
operands a result that went through Reduce, and MUL's and DIV's ZERO, is in lowest terms with a denominator of at least
1; FROMINT and ZERO always leave lowest terms. -/
def Obligations.ArithmeticKeepsLowestTerms : Prop :=
  (∀ i ∈ [Instr.reduce, .add, .sub, .mul, .div], ∀ x y, LowestTerms x → LowestTerms y → Succeeds i x y →
      LowestTerms (resultOf i x y)) ∧
    (∀ i ∈ [Instr.mul, .div], ∀ x y, Succeeds i x y → LowestTerms (resultOf i x y) ∧ 1 ≤ D (resultOf i x y)) ∧
    (∀ i ∈ [Instr.add, .sub], ∀ x y, N x ≠ 0 → N y ≠ 0 → Succeeds i x y →
      LowestTerms (resultOf i x y) ∧ 1 ≤ D (resultOf i x y)) ∧
    (∀ x y, N x ≠ 0 → Succeeds .reduce x y → LowestTerms (resultOf .reduce x y) ∧ 1 ≤ D (resultOf .reduce x y)) ∧
    (∀ i ∈ [Instr.fromint, .zero], ∀ x y, Succeeds i x y → LowestTerms (resultOf i x y))

/-- The commands refine exact rational arithmetic: a successful result is the exact sum, difference, product, quotient or
floor of the operands' values, the comparison is that of the values, Underflow is a negative difference and
DivisionByZero a zero divisor (00_scope.md R3, R8). -/
def Obligations.ArithmeticIsExactOnRationals : Prop :=
  ∀ x y : Word, Valid x → Valid y →
    (Succeeds .add x y → value (resultOf .add x y) = value x + value y) ∧
    (Succeeds .sub x y → value (resultOf .sub x y) = value x - value y) ∧
    (Succeeds .mul x y → value (resultOf .mul x y) = value x * value y) ∧
    (Succeeds .div x y → value (resultOf .div x y) = value x / value y) ∧
    (Succeeds .reduce x y ∧ value (resultOf .reduce x y) = value x) ∧
    (Succeeds .toint x y ∧ (resultOf .toint x y).toNat = ⌊value x⌋₊) ∧
    (statusAfter .sub x y = 0x02 ↔ value x < value y) ∧
    (statusAfter .div x y = 0x03 ↔ value y = 0) ∧
    (resultOf .cmp x y = 0 ↔ value x < value y) ∧ (resultOf .cmp x y = 1 ↔ value x = value y) ∧
    (resultOf .cmp x y = 2 ↔ value y < value x)

/-- 20_memory.md R44: whatever the byte order, the integer rebuilt from a serialised word is the word. That a byte order is
an arrangement of the 32 bytes is log 12's. -/
def Obligations.SerialFormKeepsWord : Prop :=
  ∀ (o : ByteOrder) (w : Word), byteOrderLegal o = true →
    (serialize o w).length = 32 ∧ rebuild o (serialize o w) = w.toNat ∧ deserialize o (serialize o w) = w

/-- 30_encoding.md R57, FRAC: the reduced n/d; DivisionByZero for d = 0; ZERO for n = 0 and d ≠ 0; the first failing
command decides, so an integer over 128 bits gives InvalidOperand (lines as abstract syntax: log 15). -/
def Obligations.FracReturnsReducedFraction : Prop :=
  ∀ (names : Names) (n d : Nat), n < 2 ^ 256 → d < 2 ^ 256 →
    (Pseudo.frac n d).run names = some (
      if 2 ^ 128 ≤ n ∨ 2 ^ 128 ≤ d then (0, 0x04)
      else if d = 0 then (0, 0x03)
      else if n = 0 then (1, 0x08)
      else (wordOf (n / Nat.gcd n d) (d / Nat.gcd n d), 0x08))

/-- R56, R57: each of the ten operator forms is the command of its row of R57 on the two values, ISZERO is EQ against ZERO, CANON is REDUCE with OPB
driven to 0 (log 15). -/
def Obligations.OperatorFormsAreTheirCommands : Prop :=
  ∀ (names : Names) (x y : Operand) (a b : Word), x.value names = some a → y.value names = some b →
    (∀ row ∈ [(Operator.plus, Instr.add), (.minus, .sub), (.times, .mul), (.slash, .div), (.equals, .eq), (.notEquals, .ne),
        (.less, .lt), (.lessEq, .le), (.greater, .gt), (.greaterEq, .ge)],
      (Pseudo.op row.1 x y).run names = some (transact (encode row.2) a b)) ∧
      (Pseudo.isZero x).run names = some (if Valid a then (if N a = 0 then 1 else 0, 0x08) else (0, 0x04)) ∧
      (Pseudo.canon x).run names = some (transact (encode .reduce) a 0)
end

