-- ==== Sys2Proof/Laws/Operands.lean ====
section
/-! SUPPORT. The codec and the operand checks in plain numbers (10_state.md R22, R26, 40_pack_unpack.md R70, R71). -/

namespace Sys2Proof.Machine

open Sys2Proof.Safety

theorem num_eq_N (w : Word) : num w = N w := by
  have := w.isLt
  simp only [num, numField, N, BitVec.extractLsb'_toNat, Nat.shiftRight_eq_div_pow]
  omega

theorem den_eq_D (w : Word) : den w = D w := by
  simp [den, denField, D, BitVec.extractLsb'_toNat]

theorem N_lt (w : Word) : N w < 2 ^ 128 := by
  have := w.isLt
  unfold N
  omega

theorem D_lt (w : Word) : D w < 2 ^ 128 := Nat.mod_lt _ (by decide)

theorem N_wordOf {n d : Nat} (hn : n < 2 ^ 128) (hd : d < 2 ^ 128) : N (wordOf n d) = n := by
  simp only [N, wordOf, BitVec.toNat_ofNat]
  omega

theorem D_wordOf {n d : Nat} (hd : d < 2 ^ 128) : D (wordOf n d) = d := by
  simp only [D, wordOf, BitVec.toNat_ofNat]
  omega

theorem wordOf_N_D (w : Word) : wordOf (N w) (D w) = w := by
  have := w.isLt
  apply BitVec.eq_of_toNat_eq
  simp only [N, D, wordOf, BitVec.toNat_ofNat]
  omega

/-- `Pack` in its range is the number n·2^128 + d (R70). -/
theorem pack_eq_wordOf {n d : Nat} (hn : n < 2 ^ 128) (hd : d < 2 ^ 128) : pack n d = wordOf n d := by
  apply BitVec.eq_of_toNat_eq
  have h := Nat.two_pow_add_eq_or_of_lt hd n
  simp only [pack, wordOf, BitVec.toNat_append, BitVec.toNat_ofNat, Nat.mod_eq_of_lt hn, Nat.mod_eq_of_lt hd,
    Nat.shiftLeft_eq]
  rw [Nat.mul_comm n, h]
  rw [← h]
  omega

theorem zeroWord_eq_one : zeroWord = 1 := by decide

theorem malformed_iff_not_Valid (w : Word) : malformed w = true ↔ ¬ Valid w := by
  simp [malformed, Valid, num_eq_N, den_eq_D]

/-- `CheckFrac` lets a valid word through and stops a malformed one (R26). -/
theorem checkFrac_eq (w : Word) (r : Answer) : checkFrac w r = if Valid w then r else .error .invalidOperand := by
  by_cases h : Valid w
  · have : ¬ malformed w = true := fun hm => (malformed_iff_not_Valid w).1 hm h
    simp [checkFrac, this, h]
  · simp [checkFrac, (malformed_iff_not_Valid w).2 h, h]

/-- The integer check lets a value of at most 128 bits through (R73, R76). -/
theorem checkInt_eq (w : Word) (r : Answer) :
    checkInt w r = if w.toNat < 2 ^ 128 then r else .error .invalidOperand := by
  simp only [checkInt, Config.MAX128]
  by_cases h : w.toNat < 2 ^ 128
  · rw [if_neg (by omega), if_pos h]
  · rw [if_pos (by omega), if_neg h]

/-- Both checks of a binary command are passed exactly by two valid words (R51). -/
theorem checkFrac_both (a b : Word) (r : Answer) :
    (checkFrac a <| checkFrac b r) = if ¬ Valid a ∨ ¬ Valid b then .error .invalidOperand else r := by
  rw [checkFrac_eq, checkFrac_eq]
  by_cases ha : Valid a <;> by_cases hb : Valid b <;> simp [ha, hb]

end Sys2Proof.Machine
end

