-- ==== Sys2Proof/Laws/Ops.lean ====
section
/-! SUPPORT. What each shared operation can do, said once (60_exceptions.md R154, R155, 10_state.md R31). -/

namespace Sys2Proof.Machine

open Sys2Proof.Safety

theorem completeOk_eq_returns (v : Word) (s : State) : completeOk v s = returns v s := rfl

theorem completeError_eq_raises (e : ErrorKind) (s : State) : completeError e s = raises e.code.toNat s := by
  cases e <;> rfl

theorem code_range (e : ErrorKind) : 1 ≤ e.code.toNat ∧ e.code.toNat ≤ 5 := by cases e <;> decide

@[simp] theorem finish_ok (v : Word) (s : State) : finish (.ok v) s = .next (returns v s) := rfl

@[simp] theorem finish_error (e : ErrorKind) (s : State) : finish (.error e) s = .next (raises e.code.toNat s) := by
  simp [finish, complete, completeError_eq_raises]

/-- A completion has one of two forms. -/
theorem finish_cases (r : Answer) (s : State) :
    (∃ v, r = .ok v ∧ finish r s = .next (returns v s)) ∨
      (∃ e, r = .error e ∧ finish r s = .next (raises e.code.toNat s)) := by
  cases r with
  | ok v => exact .inl ⟨v, rfl, rfl⟩
  | error e => exact .inr ⟨e, rfl, finish_error e s⟩

/-- Every meaning is the completion with some answer of its pseudocode. -/
theorem exec_finishes (i : Instr) (s : State) : ∃ r, exec i s = finish r s := by
  cases i <;> exact ⟨_, rfl⟩

/-- The due command's completion is the completion with some answer. -/
theorem completeCommand_finishes (s : State) : ∃ r, completeCommand s = finish r s := by
  unfold completeCommand
  split
  · exact exec_finishes _ _
  · exact ⟨_, rfl⟩

/-- STATUS after a completion: RV alone, or one code. -/
theorem statusPort_returns (v : Word) (s : State) : (returns v s).statusPort = 0x08 := by
  show (0x08#8 &&& 0x0F#8) = 0x08#8
  decide

theorem statusPort_raises (e : ErrorKind) (s : State) :
    (raises e.code.toNat s).statusPort = BitVec.ofNat 8 e.code.toNat := by
  show (BitVec.ofNat 8 e.code.toNat &&& 0x0F#8) = BitVec.ofNat 8 e.code.toNat
  cases e <;> decide

/-- The host's read of RES gives the next state exactly while RV = 1. -/
theorem readResult_cases {s : State} :
    (rvField s.statusPort = true ∧ readResult s = .next { s with held := s.held ++ [s.res] }) ∨
      (rvField s.statusPort = false ∧ readResult s = .fault .resultNotValid) := by
  cases h : rvField s.statusPort
  · exact .inr ⟨rfl, by simp [readResult, h]⟩
  · exact .inl ⟨rfl, by simp [readResult, h, State.resPort]⟩

/-- RV through the STATUS port is bit 3 of the register. -/
theorem rvField_statusPort (s : State) : rvField s.statusPort = true ↔ RV s.status := by
  unfold rvField State.statusPort RV
  generalize s.status = st
  revert st
  decide

end Sys2Proof.Machine
end

