-- ==== Sys2Proof/Laws/PerInstr.lean ====
section
/-! SUPPORT. Statements about every command as syntax, one lemma per constructor. -/

namespace Sys2Proof.Laws.OpcodeRow

open Sys2Proof.Safety

/-- The command's word is its row's match in spec/opcode_table.json and passes the well-formedness check, and the decoder
reads the command from the row's 32 bits (30_encoding.md R52, R53). -/
def Statement (i : Instr) : Prop :=
  (encode i).toNat = tableMatch i ∧ commandWellFormed (encode i) = true ∧ decodeTableWord 32 (tableMatch i) = some i

theorem pack : Statement .pack := by unfold Statement; decide
theorem unpackn : Statement .unpackn := by unfold Statement; decide
theorem unpackd : Statement .unpackd := by unfold Statement; decide
theorem fromint : Statement .fromint := by unfold Statement; decide
theorem toint : Statement .toint := by unfold Statement; decide
theorem zero : Statement .zero := by unfold Statement; decide
theorem reduce : Statement .reduce := by unfold Statement; decide
theorem add : Statement .add := by unfold Statement; decide
theorem sub : Statement .sub := by unfold Statement; decide
theorem mul : Statement .mul := by unfold Statement; decide
theorem div : Statement .div := by unfold Statement; decide
theorem cmp : Statement .cmp := by unfold Statement; decide
theorem eq : Statement .eq := by unfold Statement; decide
theorem ne : Statement .ne := by unfold Statement; decide
theorem lt : Statement .lt := by unfold Statement; decide
theorem le : Statement .le := by unfold Statement; decide
theorem gt : Statement .gt := by unfold Statement; decide
theorem ge : Statement .ge := by unfold Statement; decide

end Sys2Proof.Laws.OpcodeRow
end

