-- ==== Sys2Proof/Laws/State.lean ====
section
/-! SUPPORT. One lemma per field per update of the state, each true by rfl, so that no proof unfolds a record update. -/

namespace Sys2Proof.Machine

/-! Completion without error (60_exceptions.md R155). -/

@[simp] theorem completeOk_res (v : Word) (s : State) : (completeOk v s).res = v := rfl
@[simp] theorem completeOk_status (v : Word) (s : State) : (completeOk v s).status = statusOk := rfl
@[simp] theorem completeOk_busy (v : Word) (s : State) : (completeOk v s).busy = false := rfl
@[simp] theorem completeOk_rspValid (v : Word) (s : State) : (completeOk v s).rspValid = true := rfl
@[simp] theorem completeOk_cmdL (v : Word) (s : State) : (completeOk v s).cmdL = s.cmdL := rfl
@[simp] theorem completeOk_latA (v : Word) (s : State) : (completeOk v s).latA = s.latA := rfl
@[simp] theorem completeOk_latB (v : Word) (s : State) : (completeOk v s).latB = s.latB := rfl
@[simp] theorem completeOk_work (v : Word) (s : State) : (completeOk v s).work = s.work := rfl
@[simp] theorem completeOk_pins (v : Word) (s : State) : (completeOk v s).pins = s.pins := rfl
@[simp] theorem completeOk_wait (v : Word) (s : State) : (completeOk v s).wait = s.wait := rfl
@[simp] theorem completeOk_draws (v : Word) (s : State) : (completeOk v s).draws = s.draws := rfl
@[simp] theorem completeOk_host (v : Word) (s : State) : (completeOk v s).host = s.host := rfl
@[simp] theorem completeOk_held (v : Word) (s : State) : (completeOk v s).held = s.held := rfl

/-! Completion with an error (R154). -/

@[simp] theorem completeError_res (e : ErrorKind) (s : State) : (completeError e s).res = 0 := rfl
@[simp] theorem completeError_status (e : ErrorKind) (s : State) : (completeError e s).status = statusError e := rfl
@[simp] theorem completeError_busy (e : ErrorKind) (s : State) : (completeError e s).busy = false := rfl
@[simp] theorem completeError_rspValid (e : ErrorKind) (s : State) : (completeError e s).rspValid = true := rfl
@[simp] theorem completeError_cmdL (e : ErrorKind) (s : State) : (completeError e s).cmdL = s.cmdL := rfl
@[simp] theorem completeError_latA (e : ErrorKind) (s : State) : (completeError e s).latA = s.latA := rfl
@[simp] theorem completeError_latB (e : ErrorKind) (s : State) : (completeError e s).latB = s.latB := rfl
@[simp] theorem completeError_work (e : ErrorKind) (s : State) : (completeError e s).work = s.work := rfl
@[simp] theorem completeError_pins (e : ErrorKind) (s : State) : (completeError e s).pins = s.pins := rfl
@[simp] theorem completeError_wait (e : ErrorKind) (s : State) : (completeError e s).wait = s.wait := rfl
@[simp] theorem completeError_draws (e : ErrorKind) (s : State) : (completeError e s).draws = s.draws := rfl
@[simp] theorem completeError_host (e : ErrorKind) (s : State) : (completeError e s).host = s.host := rfl
@[simp] theorem completeError_held (e : ErrorKind) (s : State) : (completeError e s).held = s.held := rfl

/-! Acceptance (70_reset_and_hazards.md R173). -/

@[simp] theorem accept_res (s : State) : (accept s).res = s.res := rfl
@[simp] theorem accept_status (s : State) : (accept s).status = s.status := rfl
@[simp] theorem accept_busy (s : State) : (accept s).busy = true := rfl
@[simp] theorem accept_rspValid (s : State) : (accept s).rspValid = false := rfl
@[simp] theorem accept_cmdL (s : State) : (accept s).cmdL = s.pins.cmd := rfl
@[simp] theorem accept_latA (s : State) : (accept s).latA = s.pins.opa := rfl
@[simp] theorem accept_latB (s : State) : (accept s).latB = s.pins.opb := rfl
@[simp] theorem accept_work (s : State) : (accept s).work = Config.working s.draws := rfl
@[simp] theorem accept_pins (s : State) : (accept s).pins = s.pins := rfl
@[simp] theorem accept_wait (s : State) : (accept s).wait = Config.latency s.draws s.pins.cmd s.pins.opa s.pins.opb := rfl
@[simp] theorem accept_draws (s : State) : (accept s).draws = s.draws + 1 := rfl
@[simp] theorem accept_host (s : State) : (accept s).host = s.host := rfl
@[simp] theorem accept_held (s : State) : (accept s).held = s.held := rfl

/-! An event of a command in progress (R176). -/

@[simp] theorem workOn_res (n : Nat) (s : State) : (workOn n s).res = s.res := rfl
@[simp] theorem workOn_status (n : Nat) (s : State) : (workOn n s).status = s.status := rfl
@[simp] theorem workOn_busy (n : Nat) (s : State) : (workOn n s).busy = s.busy := rfl
@[simp] theorem workOn_rspValid (n : Nat) (s : State) : (workOn n s).rspValid = false := rfl
@[simp] theorem workOn_cmdL (n : Nat) (s : State) : (workOn n s).cmdL = s.cmdL := rfl
@[simp] theorem workOn_latA (n : Nat) (s : State) : (workOn n s).latA = s.latA := rfl
@[simp] theorem workOn_latB (n : Nat) (s : State) : (workOn n s).latB = s.latB := rfl
@[simp] theorem workOn_work (n : Nat) (s : State) : (workOn n s).work = Config.working s.draws := rfl
@[simp] theorem workOn_pins (n : Nat) (s : State) : (workOn n s).pins = s.pins := rfl
@[simp] theorem workOn_wait (n : Nat) (s : State) : (workOn n s).wait = n := rfl
@[simp] theorem workOn_draws (n : Nat) (s : State) : (workOn n s).draws = s.draws + 1 := rfl
@[simp] theorem workOn_host (n : Nat) (s : State) : (workOn n s).host = s.host := rfl
@[simp] theorem workOn_held (n : Nat) (s : State) : (workOn n s).held = s.held := rfl

/-! An event of an idle block. -/

@[simp] theorem idle_res (s : State) : (idle s).res = s.res := rfl
@[simp] theorem idle_status (s : State) : (idle s).status = s.status := rfl
@[simp] theorem idle_busy (s : State) : (idle s).busy = s.busy := rfl
@[simp] theorem idle_rspValid (s : State) : (idle s).rspValid = false := rfl
@[simp] theorem idle_cmdL (s : State) : (idle s).cmdL = s.cmdL := rfl
@[simp] theorem idle_latA (s : State) : (idle s).latA = s.latA := rfl
@[simp] theorem idle_latB (s : State) : (idle s).latB = s.latB := rfl
@[simp] theorem idle_work (s : State) : (idle s).work = s.work := rfl
@[simp] theorem idle_pins (s : State) : (idle s).pins = s.pins := rfl
@[simp] theorem idle_wait (s : State) : (idle s).wait = s.wait := rfl
@[simp] theorem idle_draws (s : State) : (idle s).draws = s.draws := rfl
@[simp] theorem idle_host (s : State) : (idle s).host = s.host := rfl
@[simp] theorem idle_held (s : State) : (idle s).held = s.held := rfl

/-! Reset (R170). -/

@[simp] theorem resetRegs_res (s : State) : (resetRegs s).res = 0 := rfl
@[simp] theorem resetRegs_status (s : State) : (resetRegs s).status = 0 := rfl
@[simp] theorem resetRegs_busy (s : State) : (resetRegs s).busy = false := rfl
@[simp] theorem resetRegs_rspValid (s : State) : (resetRegs s).rspValid = false := rfl
@[simp] theorem resetRegs_cmdL (s : State) : (resetRegs s).cmdL = 0 := rfl
@[simp] theorem resetRegs_latA (s : State) : (resetRegs s).latA = 0 := rfl
@[simp] theorem resetRegs_latB (s : State) : (resetRegs s).latB = 0 := rfl
@[simp] theorem resetRegs_work (s : State) : (resetRegs s).work = [] := rfl
@[simp] theorem resetRegs_pins (s : State) : (resetRegs s).pins = s.pins := rfl
@[simp] theorem resetRegs_wait (s : State) : (resetRegs s).wait = 0 := rfl
@[simp] theorem resetRegs_draws (s : State) : (resetRegs s).draws = s.draws := rfl
@[simp] theorem resetRegs_host (s : State) : (resetRegs s).host = s.host := rfl
@[simp] theorem resetRegs_held (s : State) : (resetRegs s).held = s.held := rfl

/-! The host's drive of the ports (R170): the ports are always the ones driven; the registers are kept or reset. -/

theorem drivePins_low {p : Pins} (s : State) (h : p.rst = false) : drivePins p s = { s with pins := p } := by
  simp [drivePins, h]

theorem drivePins_high {p : Pins} (s : State) (h : p.rst = true) :
    drivePins p s = resetRegs { s with pins := p } := by
  simp [drivePins, h]

@[simp] theorem drivePins_pins (p : Pins) (s : State) : (drivePins p s).pins = p := by
  cases h : p.rst <;> simp [drivePins, h]

@[simp] theorem drivePins_host (p : Pins) (s : State) : (drivePins p s).host = s.host := by
  cases h : p.rst <;> simp [drivePins, h]

end Sys2Proof.Machine
end

