-- ==== Sys2Proof/Laws/Step.lean ====
section
/-! SUPPORT. What a step can do, said once (70_reset_and_hazards.md R170, R173, R176). -/

namespace Sys2Proof.Machine

open Sys2Proof.Safety

/-- The block's own events: reset, completion, an event of a command in progress, acceptance, or nothing. -/
theorem blockEvent_cases (s : State) :
    (s.pins.rst = true ∧ blockEvent s = .next (resetRegs s)) ∨
      (s.pins.rst = false ∧ s.busy = true ∧ s.wait = 0 ∧ blockEvent s = completeCommand s) ∨
      (∃ n, s.pins.rst = false ∧ s.busy = true ∧ s.wait = n + 1 ∧ blockEvent s = .next (workOn n s)) ∨
      (s.pins.rst = false ∧ s.busy = false ∧ s.pins.reqValid = true ∧ blockEvent s = .next (accept s)) ∨
      (s.pins.rst = false ∧ s.busy = false ∧ s.pins.reqValid = false ∧ blockEvent s = .next (idle s)) := by
  cases hr : s.pins.rst
  · cases hb : s.busy
    · cases hv : s.pins.reqValid <;> simp [blockEvent, hr, hb, hv]
    · cases hw : s.wait <;> simp [blockEvent, hr, hb, hw]
  · simp [blockEvent, hr]

/-- Where the block moves, the step is its event, the host's action taken off the list. -/
theorem step_of_blockMoves {s : State} {rest : List HostAction} (h : BlockMoves s rest) :
    step s = blockEvent { s with host := rest } := by
  rcases h with ⟨h, rfl⟩ | h
  · have : ({ s with host := [] } : State) = s := by cases s; simp_all
    simp [step, nextEvent, h, this]
  · simp [step, nextEvent, h]

theorem step_drive {s : State} {p : Pins} {rest : List HostAction} (h : s.host = .drive p :: rest) :
    step s = .next (drivePins p { s with host := rest }) := by
  simp [step, nextEvent, h]

theorem step_readResult {s : State} {rest : List HostAction} (h : s.host = .readResult :: rest) :
    step s = readResult { s with host := rest } := by
  simp [step, nextEvent, h]

/-- The three kinds of step: the block moves, the host drives the ports, the host reads RES. -/
theorem step_kinds (s : State) :
    (∃ rest, BlockMoves s rest) ∨ (∃ p rest, s.host = .drive p :: rest) ∨ (∃ rest, s.host = .readResult :: rest) := by
  cases h : s.host with
  | nil => exact .inl ⟨[], .inl ⟨h, rfl⟩⟩
  | cons a rest =>
    cases a with
    | letBlockMove => exact .inl ⟨rest, .inr h⟩
    | drive p => exact .inr (.inl ⟨p, rest, rfl⟩)
    | readResult => exact .inr (.inr ⟨rest, rfl⟩)

/-- Everything a step that answers a next state can have done. -/
theorem step_cases {s t : State} (h : step s = .next t) :
    ∃ rest, (t = resetRegs { s with host := rest } ∧ s.pins.rst = true) ∨
      (∃ r, t = complete r { s with host := rest } ∧ s.pins.rst = false ∧ s.busy = true ∧ s.wait = 0) ∨
      (∃ n, t = workOn n { s with host := rest } ∧ s.pins.rst = false ∧ s.busy = true ∧ s.wait = n + 1) ∨
      (t = accept { s with host := rest } ∧ s.pins.rst = false ∧ s.busy = false ∧ s.pins.reqValid = true) ∨
      (t = idle { s with host := rest } ∧ s.pins.rst = false ∧ s.busy = false ∧ s.pins.reqValid = false) ∨
      (∃ p, t = drivePins p { s with host := rest } ∧ s.host = .drive p :: rest) ∨
      (t = { s with host := rest, held := s.held ++ [s.res] } ∧ s.host = .readResult :: rest ∧ RV s.status) := by
  rcases step_kinds s with ⟨rest, hm⟩ | ⟨p, rest, hd⟩ | ⟨rest, hr⟩
  · refine ⟨rest, ?_⟩
    rw [step_of_blockMoves hm] at h
    rcases blockEvent_cases { s with host := rest } with c | c | ⟨n, c⟩ | c | c
    · rw [c.2] at h; cases h; exact .inl ⟨rfl, c.1⟩
    · obtain ⟨r, hc⟩ := completeCommand_finishes { s with host := rest }
      rw [c.2.2.2, hc] at h; cases h
      exact .inr (.inl ⟨r, rfl, c.1, c.2.1, c.2.2.1⟩)
    · rw [c.2.2.2] at h; cases h
      exact .inr (.inr (.inl ⟨n, rfl, c.1, c.2.1, c.2.2.1⟩))
    · rw [c.2.2.2] at h; cases h
      exact .inr (.inr (.inr (.inl ⟨rfl, c.1, c.2.1, c.2.2.1⟩)))
    · rw [c.2.2.2] at h; cases h
      exact .inr (.inr (.inr (.inr (.inl ⟨rfl, c.1, c.2.1, c.2.2.1⟩))))
  · rw [step_drive hd] at h; cases h
    exact ⟨rest, .inr (.inr (.inr (.inr (.inr (.inl ⟨p, rfl, hd⟩)))))⟩
  · refine ⟨rest, .inr (.inr (.inr (.inr (.inr (.inr ?_)))))⟩
    rw [step_readResult hr] at h
    rcases readResult_cases (s := { s with host := rest }) with ⟨hv, hn⟩ | ⟨hv, hn⟩
    · rw [hn] at h; cases h
      exact ⟨rfl, hr, (rvField_statusPort _).1 hv⟩
    · rw [hn] at h; cases h

/-- A run of k + 1 steps is a step and a run of k. -/
theorem run_succ {M : Host.Core} {k : Nat} {s t : M.State} (h : M.step s = .next t) : M.run (k + 1) s = M.run k t := by
  simp only [Host.Core.run, h]

end Sys2Proof.Machine
end

