-- ==== Sys2Proof/Laws/Transact.lean ====
section
/-! SUPPORT. A command's answer is a function of the two latched operands, and `transact` shows it (70_reset_and_hazards.md
R180). -/

namespace Sys2Proof.Machine

open Sys2Proof.Safety

/-- Every meaning is `finish` of an answer computed from A and B alone. -/
theorem exec_of_latches (i : Instr) : ∃ f : Word → Word → Answer, ∀ s, exec i s = finish (f s.latA s.latB) s := by
  cases i
  · exact ⟨packWords, fun _ => rfl⟩
  · exact ⟨fun a _ => .ok (zext (num a)), fun _ => rfl⟩
  · exact ⟨fun a _ => .ok (zext (den a)), fun _ => rfl⟩
  · exact ⟨fun a _ => fromIntWord a, fun _ => rfl⟩
  · exact ⟨fun a _ => toIntWord a, fun _ => rfl⟩
  · exact ⟨fun _ _ => .ok zeroWord, fun _ => rfl⟩
  · exact ⟨fun a _ => reduceWord a, fun _ => rfl⟩
  · exact ⟨addWords, fun _ => rfl⟩
  · exact ⟨subWords, fun _ => rfl⟩
  · exact ⟨mulWords, fun _ => rfl⟩
  · exact ⟨divWords, fun _ => rfl⟩
  all_goals exact ⟨fun a b => comparing a b _, fun _ => rfl⟩

/-- So is the completion of any command word, an illegal one included. -/
theorem completeCommand_of_latches (c : CmdWord) :
    ∃ f : Word → Word → Answer, ∀ s : State, s.cmdL = c → completeCommand s = finish (f s.latA s.latB) s := by
  cases hd : decode c with
  | illegal y => exact ⟨fun _ _ => .error .illegalCommand, fun s hs => by simp [completeCommand, hs, hd]⟩
  | ok i =>
    obtain ⟨f, hf⟩ := exec_of_latches i
    exact ⟨f, fun s hs => by simp only [completeCommand, hs, hd, hf]⟩

/-- RES and STATUS after an answer. -/
def outcome : Answer → Word × StatusWord
  | .ok v => (v, 0x08)
  | .error e => (0, BitVec.ofNat 8 e.code.toNat)

/-- `transact` shows the answer of the command word's completion. -/
theorem transact_eq_outcome {c : CmdWord} {f : Word → Word → Answer}
    (hf : ∀ s : State, s.cmdL = c → completeCommand s = finish (f s.latA s.latB) s) (a b : Word) :
    transact c a b = outcome (f a b) := by
  unfold transact
  rw [hf (latched c a b) rfl]
  show (match finish (f a b) (latched c a b) with
    | .next t => (t.resPort, t.statusPort) | .fault _ => (0, 0) | .refused _ => (0, 0)) = _
  rcases f a b with e | v
  · rw [finish_error]
    simp only [statusPort_raises, outcome]
    rfl
  · rw [finish_ok]
    simp only [statusPort_returns, outcome]
    rfl

end Sys2Proof.Machine
end

