-- ==== Sys2Proof/Tests/Slice0.lean ====
section
/-! SUPPORT. Tests: decoding of words written out from the spec, the ill-formed terms of WellFormed, the vectors of
spec/95_test_vectors.md section 2 (every expected value is that table's), and for every statement with hypotheses a
witness that meets them. -/

namespace Sys2Proof.Tests

open Sys2Proof.Machine Sys2Proof.Safety

/-! ## Decoding (30_encoding.md R52, R53) -/

theorem test_decode_pack : decode 0b00000000000000000000000000000001#32 = .ok .pack := by decide
theorem test_decode_unpackn : decode 0b00000000000000000000000000000010#32 = .ok .unpackn := by decide
theorem test_decode_unpackd : decode 0b00000000000000000000000000000011#32 = .ok .unpackd := by decide
theorem test_decode_fromint : decode 0b00000000000000000000000000000100#32 = .ok .fromint := by decide
theorem test_decode_toint : decode 0b00000000000000000000000000000101#32 = .ok .toint := by decide
theorem test_decode_zero : decode 0b00000000000000000000000000000110#32 = .ok .zero := by decide
theorem test_decode_reduce : decode 0b00000000000000000000000000001000#32 = .ok .reduce := by decide
theorem test_decode_add : decode 0b00000000000000000000000000010000#32 = .ok .add := by decide
theorem test_decode_sub : decode 0b00000000000000000000000000010001#32 = .ok .sub := by decide
theorem test_decode_mul : decode 0b00000000000000000000000000011000#32 = .ok .mul := by decide
theorem test_decode_div : decode 0b00000000000000000000000000100000#32 = .ok .div := by decide
theorem test_decode_cmp : decode 0b00000000000000000000000000101000#32 = .ok .cmp := by decide
theorem test_decode_eq : decode 0b00000000000000000000000000101001#32 = .ok .eq := by decide
theorem test_decode_ne : decode 0b00000000000000000000000000101010#32 = .ok .ne := by decide
theorem test_decode_lt : decode 0b00000000000000000000000000101011#32 = .ok .lt := by decide
theorem test_decode_le : decode 0b00000000000000000000000000101100#32 = .ok .le := by decide
theorem test_decode_gt : decode 0b00000000000000000000000000101101#32 = .ok .gt := by decide
theorem test_decode_ge : decode 0b00000000000000000000000000101110#32 = .ok .ge := by decide

theorem test_decode_all_zero : decode 0x00000000#32 = .illegal .opcodeUnassigned := by decide
theorem test_decode_unassigned_07 : decode 0x00000007#32 = .illegal .opcodeUnassigned := by decide
theorem test_decode_unassigned_FF : decode 0x000000FF#32 = .illegal .opcodeUnassigned := by decide
theorem test_decode_add_rsv8 : decode 0x00000110#32 = .illegal .reservedBitsSet := by decide
theorem test_decode_cmp_rsv31 : decode 0x80000028#32 = .illegal .reservedBitsSet := by decide
theorem test_decode_table_word : decodeTableWord 32 0x2C = some .le ∧ decodeTableWord 32 0x2F = none := by decide
theorem test_decode_table_word_wide : decodeTableWord 40 0x100000010 = none := by decide

/-! ## Ill-formed terms, one for each check -/

theorem test_wf_reserved_bit_refused : reservedBitsZero 0x00000110#32 = false ∧ commandWellFormed 0x00000110#32 = false := by
  decide
theorem test_wf_opcode_refused : opcodeAssigned 0x00000012#32 = false ∧ commandWellFormed 0x00000012#32 = false := by decide
theorem test_wf_accepts_ge : commandWellFormed 0x0000002E#32 = true := by decide
theorem test_line_arity_refused : Line.wellFormed [] ⟨.add, [.int 1]⟩ = false := by decide
theorem test_line_wide_fraction_refused : Line.wellFormed [] ⟨.toint, [.frac (2 ^ 128) 1]⟩ = false := by decide
theorem test_line_wide_integer_refused : Line.wellFormed [] ⟨.fromint, [.int (2 ^ 256)]⟩ = false := by decide
theorem test_line_failed_name_refused : Line.wellFormed [none] ⟨.reduce, [.name 0]⟩ = false := by decide
theorem test_mnemonic_case : ofMnemonic "fromInt" = some .fromint := by decide

/-! ## Commands (95_test_vectors.md section 2) -/

/-- A block that has latched two operands. -/
def on (a b : Word) : State := { State.reset with busy := true, latA := a, latB := b }

/-- RES and STATUS of a next state. -/
def answer : Host.Outcome State Fault Refusal → Option (Word × StatusWord)
  | .next t => some (t.resPort, t.statusPort)
  | .fault _ => none
  | .refused _ => none

/-- M of 95_test_vectors.md. -/
abbrev M : Nat := 2 ^ 128 - 1

theorem test_pack_no_reduction : answer (exec .pack (on 2 4)) = some (wordOf 2 4, 0x08) := by decide
theorem test_pack_too_wide : answer (exec .pack (on 1 (wordOf 1 0))) = some (0, 0x04) := by decide
theorem test_unpackn : answer (exec .unpackn (on (wordOf 3 4) 9)) = some (3, 0x08) := by decide
theorem test_unpackd_zero_fraction : answer (exec .unpackd (on (wordOf 0 9) 0)) = some (9, 0x08) := by decide
theorem test_fromint_max : answer (exec .fromint (on (wordOf 0 M) 0)) = some (wordOf M 1, 0x08) := by decide
theorem test_fromint_too_wide : answer (exec .fromint (on (wordOf 1 0) 0)) = some (0, 0x04) := by decide
theorem test_toint_floor : answer (exec .toint (on (wordOf 7 2) 0)) = some (3, 0x08) := by decide
theorem test_toint_malformed : answer (exec .toint (on (wordOf 5 0) 0)) = some (0, 0x04) := by decide
theorem test_zero : answer (exec .zero (on 7 7)) = some (wordOf 0 1, 0x08) := by decide
theorem test_reduce : answer (exec .reduce (on (wordOf 6 4) 0)) = some (wordOf 3 2, 0x08) := by decide
theorem test_reduce_zero_kept : answer (exec .reduce (on (wordOf 0 7) 0)) = some (wordOf 0 7, 0x08) := by decide
theorem test_add_wide_sum : answer (exec .add (on (wordOf M (M - 1)) (wordOf M (M - 1)))) =
    some (wordOf M (2 ^ 127 - 1), 0x08) := by decide
theorem test_add_overflow : answer (exec .add (on (wordOf M 1) (wordOf 1 1))) = some (0, 0x01) := by decide
theorem test_sub_equal_unreduced : answer (exec .sub (on (wordOf 2 4) (wordOf 1 2))) = some (wordOf 0 8, 0x08) := by decide
theorem test_sub_underflow : answer (exec .sub (on (wordOf 1 3) (wordOf 1 2))) = some (0, 0x02) := by decide
theorem test_mul_gcd_rescues : answer (exec .mul (on (wordOf M 2) (wordOf 2 M))) = some (wordOf 1 1, 0x08) := by decide
theorem test_mul_overflow : answer (exec .mul (on (wordOf (2 ^ 127) 1) (wordOf 2 1))) = some (0, 0x01) := by decide
theorem test_div : answer (exec .div (on (wordOf 2 3) (wordOf 4 9))) = some (wordOf 3 2, 0x08) := by decide
theorem test_div_zero_zero : answer (exec .div (on (wordOf 0 1) (wordOf 0 1))) = some (0, 0x03) := by decide
theorem test_cmp_raw_zero_less : answer (exec .cmp (on 0 (wordOf 1 M))) = some (0, 0x08) := by decide
theorem test_cmp_extreme : answer (exec .cmp (on (wordOf M 1) (wordOf M (M - 1)))) = some (2, 0x08) := by decide
theorem test_eq_by_value : answer (exec .eq (on (wordOf 2 4) (wordOf 1 2))) = some (1, 0x08) := by decide
theorem test_eq_raw_zero : answer (exec .eq (on 0 (wordOf 1 M))) = some (0, 0x08) := by decide
theorem test_ne_raw_zero : answer (exec .ne (on 0 (wordOf 0 9))) = some (0, 0x08) := by decide
theorem test_ne_greater : answer (exec .ne (on (wordOf 3 4) (wordOf 1 2))) = some (1, 0x08) := by decide
theorem test_lt : answer (exec .lt (on (wordOf 1 3) (wordOf 1 2))) = some (1, 0x08) := by decide
theorem test_lt_malformed : answer (exec .lt (on (wordOf 5 0) (wordOf 1 1))) = some (0, 0x04) := by decide
theorem test_le_equal : answer (exec .le (on (wordOf 2 4) (wordOf 1 2))) = some (1, 0x08) := by decide
theorem test_le_greater : answer (exec .le (on (wordOf 3 4) (wordOf 1 2))) = some (0, 0x08) := by decide
theorem test_gt : answer (exec .gt (on (wordOf 3 4) (wordOf 1 2))) = some (1, 0x08) := by decide
theorem test_gt_less : answer (exec .gt (on (wordOf 1 3) (wordOf 1 2))) = some (0, 0x08) := by decide
theorem test_ge_equal : answer (exec .ge (on (wordOf 2 4) (wordOf 1 2))) = some (1, 0x08) := by decide
theorem test_ge_less : answer (exec .ge (on 0 (wordOf 1 M))) = some (0, 0x08) := by decide

/-! ## Steps -/

theorem test_step_runs_fetched_word :
    answer (step (({ State.reset with latA := wordOf 1 3, latB := wordOf 1 6 }).withFetchWord 32 0x10)) =
      some (wordOf 1 2, 0x08) := by decide

theorem test_step_illegal_word : answer (step (State.reset.withFetchWord 32 0x110)) = some (0, 0x05) := by decide

theorem test_frac : (Pseudo.frac 6 4).run [] = some (wordOf 3 2, 0x08) := by decide

theorem test_frac_zero_denominator : (Pseudo.frac 5 0).run [] = some (0, 0x03) := by decide

theorem test_operator_forms :
    (Pseudo.op .minus (.frac 3 4) (.frac 1 4)).run [] = some (wordOf 1 2, 0x08) ∧
      (Pseudo.op .greaterEq (.frac 1 3) (.frac 1 2)).run [] = some (0, 0x08) := by decide

theorem test_serialize_reversible :
    deserialize (List.range 32).reverse (serialize (List.range 32).reverse (wordOf 3 2)) = wordOf 3 2 := by decide

/-! ## Witnesses: concrete data that meet the hypotheses of the statements -/

/-- A block about to complete 1/3 + 1/6. -/
def due : State := { State.reset with busy := true, cmdL := 0x10, latA := wordOf 1 3, latB := wordOf 1 6 }

/-- Ports that present ADD 1/3, 1/6. -/
def presented : Pins := { Pins.undriven with reqValid := true, cmd := 0x10, opa := wordOf 1 3, opb := wordOf 1 6 }

/-- Ports with RST high. -/
def resetHigh : Pins := { Pins.undriven with rst := true }

theorem moves_empty (s : State) (h : s.host = []) : BlockMoves s [] := .inl ⟨h, rfl⟩

theorem witness_IllegalWordsCompleteWithCode5 :
    (let s := { due with cmdL := 0x000000FF };
      Unassigned (s.cmdL.toNat % 256) ∨ s.cmdL.toNat / 256 ≠ 0) ∧
      (let s := { due with cmdL := 0x00000110 };
        Unassigned (s.cmdL.toNat % 256) ∨ s.cmdL.toNat / 256 ≠ 0) := by decide

theorem witness_StepRunsDecodedCommand :
    (BlockMoves due [] ∧ due.pins.rst = false ∧ due.busy = true ∧ due.wait = 0 ∧ decode due.cmdL = .ok .add) ∧
      decode ({ due with cmdL := 0x2F } : State).cmdL = .illegal .opcodeUnassigned :=
  ⟨⟨moves_empty _ rfl, rfl, rfl, rfl, by decide⟩, by decide⟩

theorem witness_StepAcceptsPresentedCommand :
    let s := { State.reset with pins := presented, host := [.letBlockMove] };
    BlockMoves s [] ∧ s.reqReady = true ∧ s.pins.reqValid = true :=
  ⟨.inr rfl, by decide, rfl⟩

theorem witness_StepWithoutEventKeepsRegisters :
    (let s := { due with wait := 1 };
      BlockMoves s [] ∧ s.pins.rst = false ∧ s.busy = true ∧ s.wait = 0 + 1) ∧
    (BlockMoves State.reset [] ∧ State.reset.reqReady = true ∧ State.reset.pins.reqValid = false) :=
  ⟨⟨moves_empty _ rfl, rfl, rfl, rfl⟩, moves_empty _ rfl, by decide, rfl⟩

theorem witness_RegistersChangeOnlyAtCompletionOrReset :
    (∃ t, step due = .next t ∧ (t.res ≠ due.res ∨ t.status ≠ due.status)) ∧
      (∃ t, step { due with res := 5, host := [.drive resetHigh] } = .next t ∧ (t.res ≠ 5 ∨ t.status ≠ due.status)) :=
  ⟨⟨_, rfl, by decide⟩, _, rfl, by decide⟩

theorem witness_LatchesChangeOnlyAtAcceptanceOrReset :
    (∃ t, step { State.reset with pins := presented } = .next t ∧
      (t.cmdL ≠ State.reset.cmdL ∨ t.latA ≠ State.reset.latA ∨ t.latB ≠ State.reset.latB)) ∧
      (∃ t, step { due with host := [.drive resetHigh] } = .next t ∧
        (t.cmdL ≠ due.cmdL ∨ t.latA ≠ due.latA ∨ t.latB ≠ due.latB)) :=
  ⟨⟨_, rfl, .inl (by decide)⟩, _, rfl, .inl (by decide)⟩

theorem witness_ResetAbandonsCommand :
    (({ due with host := [.drive resetHigh] } : State).host = .drive resetHigh :: [] ∧ resetHigh.rst = true) ∧
      (BlockMoves { due with pins := resetHigh } [] ∧ ({ due with pins := resetHigh } : State).pins.rst = true) ∧
      (let s := { State.reset with pins := resetHigh, host := [.drive Pins.undriven] };
        s.host = .drive Pins.undriven :: [] ∧ Pins.undriven.rst = false ∧ AtReset s) :=
  ⟨⟨rfl, rfl⟩, ⟨moves_empty _ rfl, rfl⟩, rfl, rfl, by decide⟩

theorem witness_AcceptedCommandCompletes :
    (let s := { due with wait := 2, host := [.letBlockMove, .drive presented] };
      s.busy = true ∧ s.pins.rst = false ∧ patient (RV s.status) s.host = true) ∧
      (let s := { due with wait := 2, status := 0x08, host := [.readResult, .letBlockMove] };
        s.busy = true ∧ s.pins.rst = false ∧ patient (RV s.status) s.host = true) := by decide

theorem witness_PortsDoNotReachAcceptedCommand :
    BlockMoves due [] ∧ due.busy = true ∧ due.pins.rst = false ∧ presented.rst = false ∧ ∃ t, step due = .next t :=
  ⟨moves_empty _ rfl, rfl, rfl, rfl, _, rfl⟩

theorem witness_ReadingResultNeedsRV :
    (let s := { State.reset with host := [.readResult] };
      s.host = .readResult :: [] ∧ ¬ RV s.status) ∧
      (let s := { State.reset with status := 0x08, host := [.readResult] };
        s.host = .readResult :: [] ∧ RV s.status) := by decide

theorem witness_ResetValuesAndHiddenLatches :
    State.reset.busy = false ∧ (∃ t, step State.reset = .next t) ∧
      (∃ f, step { State.reset with host := [.readResult] } = .fault f) :=
  ⟨rfl, ⟨_, rfl⟩, .resultNotValid, rfl⟩

theorem witness_StepKeepsBlockInv : BlockInv due ∧ ∃ t, step due = .next t :=
  ⟨⟨by decide, by decide, by decide, by decide, by decide, by decide⟩, _, rfl⟩

theorem witness_InstancesAreIndependent : ∃ qs, stepInstance 1 [State.reset, due] = .next qs ∧ (0 : Nat) ≠ 1 :=
  ⟨_, rfl, by decide⟩

theorem witness_CommandsRaiseExactlyTheErrorsOfTheTable :
    3 ∈ errorRow .div ∧ decode 0x00000030 = .illegal .opcodeUnassigned := by decide

theorem witness_OperandChecksComeFirst :
    (∃ t, exec .add due = .next t) ∧ (opaKind .zero = .ignored ∧ ∃ t, exec .zero due = .next t) ∧
      (opbKind .toint = .ignored ∧ ∃ t, exec .toint due = .next t) :=
  ⟨⟨_, rfl⟩, ⟨rfl, _, rfl⟩, rfl, _, rfl⟩

theorem witness_CodecIsBijection : Config.MAX128 ≤ Config.MAX128 ∧ 0 ≤ Config.MAX128 := by decide

theorem witness_FromintTointRoundTrip : Config.MAX128 ≤ Config.MAX128 := Nat.le_refl _

theorem witness_GcdIsGreatestCommonDivisor : (1 ≤ 4 ∧ 4 < 6 ∧ 6 ≠ 0) ∧ euclidGcd 4 6 = 2 := by decide

theorem witness_ReduceComputesLowestTerms : ((0 : Nat) ≠ 0 → (0 : Nat) ≠ 0) ∧ (6 ≠ 0 → 4 ≠ 0) := by decide

theorem witness_ReduceKeepsValue :
    ((6 ≠ 0 → 1 ≤ 4) ∧ reduce 6 4 = .ok (wordOf 3 2)) ∧ ((0 ≠ 0 → 1 ≤ 7) ∧ reduce 0 7 = .ok (wordOf 0 7)) ∧
      (3 < 2 ^ 128 ∧ 2 < 2 ^ 128 ∧ 3 ≠ 0 ∧ Nat.gcd 3 2 = 1) ∧ (6 ≠ 0 ∧ 3 ≠ 0 ∧ 1 ≤ 4 ∧ 1 ≤ 2 ∧ 6 * 2 = 3 * 4) := by
  refine ⟨⟨by decide, by rfl⟩, ⟨by decide, by rfl⟩, by decide, by decide⟩

/-- A minuend and a subtrahend, both valid, for the laws. -/
theorem witness_AdderLaws :
    (Valid (wordOf 3 4) ∧ Valid (wordOf 1 4) ∧ Succeeds .add (wordOf 3 4) (wordOf 1 4) ∧
        Succeeds .sub (wordOf 3 4) (wordOf 1 4) ∧
        statusAfter .add (resultOf .sub (wordOf 3 4) (wordOf 1 4)) (wordOf 1 4) ≠ 0x01) ∧
      (Valid 0 ∧ N 0 = 0 ∧ N (wordOf 3 4) ≠ 0) ∧ Less (wordOf 1 3) (wordOf 1 2) := by decide

theorem witness_MultiplierLaws : Valid (wordOf 2 4) ∧ Valid 0 ∧ N (wordOf 2 4) ≠ 0 := by decide

theorem witness_DividerLaws :
    Valid (wordOf 2 3) ∧ Valid (wordOf 4 9) ∧ N (wordOf 4 9) ≠ 0 ∧ Succeeds .div (wordOf 2 3) (wordOf 4 9) ∧
      Succeeds .mul (resultOf .div (wordOf 2 3) (wordOf 4 9)) (wordOf 4 9) ∧ (Valid 0 ∧ N 0 = 0) := by decide

theorem witness_ComparatorLaws :
    (Valid 0 ∧ Valid (wordOf 2 4) ∧ Valid (wordOf 1 2) ∧ Valid (wordOf M 1)) ∧
      (resultOf .eq (wordOf 2 4) (wordOf 1 2) = 1 ∧ resultOf .eq (wordOf 1 2) (wordOf 3 6) = 1) ∧
      (resultOf .lt 0 (wordOf 1 2) = 1 ∧ resultOf .lt (wordOf 1 2) (wordOf M 1) = 1) ∧
      resultOf .eq 0 (wordOf 1 2) ≠ 1 := by decide

theorem witness_ArithmeticKeepsLowestTerms :
    (LowestTerms (wordOf 1 3) ∧ LowestTerms (wordOf 1 6) ∧ Succeeds .add (wordOf 1 3) (wordOf 1 6)) ∧
      Succeeds .mul (wordOf 2 4) (wordOf 2 4) ∧
      (N (wordOf 2 4) ≠ 0 ∧ N (wordOf 1 2) ≠ 0 ∧ Succeeds .sub (wordOf 2 4) (wordOf 1 2)) ∧
      Succeeds .reduce (wordOf 6 4) 0 ∧ Succeeds .fromint 5 0 ∧ Succeeds .zero 0 0 := by
  unfold LowestTerms
  decide

theorem witness_ArithmeticIsExactOnRationals :
    Valid (wordOf 3 4) ∧ Valid (wordOf 1 4) ∧ Succeeds .add (wordOf 3 4) (wordOf 1 4) ∧
      Succeeds .sub (wordOf 3 4) (wordOf 1 4) ∧ Succeeds .mul (wordOf 3 4) (wordOf 1 4) ∧
      Succeeds .div (wordOf 3 4) (wordOf 1 4) := by decide

theorem witness_SerialFormKeepsWord :
    byteOrderLegal (List.range 32) = true ∧ byteOrderLegal (List.range 32).reverse = true ∧
      byteOrderLegal (List.replicate 32 0) = false := by decide

theorem witness_FracReturnsReducedFraction : 2 ^ 256 - 1 < 2 ^ 256 ∧ 0 < 2 ^ 256 := by decide

theorem witness_OperatorFormsAreTheirCommands :
    Operand.value [some 7] (.name 0) = some 7 ∧ Operand.value [] (.frac 1 2) = some (wordOf 1 2) ∧
      Operand.value [] (.int (2 ^ 256 - 1)) = some (BitVec.ofNat 256 (2 ^ 256 - 1)) := by decide

end Sys2Proof.Tests
end

section
/-! Proofs: the facts the arithmetic statements share. What `transact` shows of each command, the answers of the pseudocode
in plain numbers, and Euclid's loop (70_reset_and_hazards.md R180, 41_gcd_normalizer.md R90, R91). -/

namespace Sys2Proof.Machine

open Sys2Proof.Safety

/-! ## The transaction of a command -/

theorem decode_encode (i : Instr) : decode (encode i) = .ok i := by cases i <;> decide

/-- The transaction of a command shows the answer its meaning finishes with. -/
theorem transact_encode {i : Instr} {f : Word → Word → Answer} (hf : ∀ s, exec i s = finish (f s.latA s.latB) s)
    (a b : Word) : transact (encode i) a b = outcome (f a b) :=
  transact_eq_outcome (fun s hs => by simp only [completeCommand, hs, decode_encode, hf]) a b

theorem transact_toint (a b : Word) : transact (encode .toint) a b = outcome (toIntWord a) :=
  transact_encode (f := fun a _ => toIntWord a) (fun _ => rfl) a b

theorem transact_reduce (a b : Word) : transact (encode .reduce) a b = outcome (reduceWord a) :=
  transact_encode (f := fun a _ => reduceWord a) (fun _ => rfl) a b

theorem transact_add (a b : Word) : transact (encode .add) a b = outcome (addWords a b) :=
  transact_encode (fun _ => rfl) a b

theorem transact_sub (a b : Word) : transact (encode .sub) a b = outcome (subWords a b) :=
  transact_encode (fun _ => rfl) a b

theorem transact_mul (a b : Word) : transact (encode .mul) a b = outcome (mulWords a b) :=
  transact_encode (fun _ => rfl) a b

theorem transact_div (a b : Word) : transact (encode .div) a b = outcome (divWords a b) :=
  transact_encode (fun _ => rfl) a b

theorem transact_cmp (a b : Word) : transact (encode .cmp) a b = outcome (comparing a b Comparison.code) :=
  transact_encode (f := fun a b => comparing a b Comparison.code) (fun _ => rfl) a b

@[simp] theorem outcome_ok (v : Word) : outcome (.ok v) = (v, 0x08) := rfl

/-- STATUS tells success from every error (R154, R155). -/
theorem outcome_status_ok_iff (r : Answer) : (outcome r).2 = 0x08 ↔ ∃ v, r = .ok v := by
  cases r with
  | ok v => simp
  | error e => cases e <;> simp [outcome, ErrorKind.code]

/-- STATUS tells the errors from one another and from success (R150). -/
theorem outcome_status_error_iff (r : Answer) (e : ErrorKind) :
    (outcome r).2 = BitVec.ofNat 8 e.code.toNat ↔ r = .error e := by
  cases r with
  | ok v => cases e <;> simp [ErrorKind.code]
  | error e' => cases e <;> cases e' <;> simp [outcome, ErrorKind.code]

/-! ## The answers in plain numbers -/

theorem addWords_eq (a b : Word) : addWords a b =
    if ¬ Valid a ∨ ¬ Valid b then .error .invalidOperand
    else if N a = 0 then .ok b
    else if N b = 0 then .ok a
    else reduce (N a * D b + N b * D a) (D a * D b) := by
  simp only [addWords, checkFrac_both, num_eq_N, den_eq_D]

theorem subWords_eq (a b : Word) : subWords a b =
    if ¬ Valid a ∨ ¬ Valid b then .error .invalidOperand
    else if N b = 0 then .ok a
    else if N a = 0 then .error .underflow
    else if N a * D b < N b * D a then .error .underflow
    else reduce (N a * D b - N b * D a) (D a * D b) := by
  simp only [subWords, checkFrac_both, num_eq_N, den_eq_D]

theorem mulWords_eq (a b : Word) : mulWords a b =
    if ¬ Valid a ∨ ¬ Valid b then .error .invalidOperand
    else if N a = 0 ∨ N b = 0 then .ok 1
    else reduce (N a * N b) (D a * D b) := by
  simp only [mulWords, checkFrac_both, num_eq_N, den_eq_D, zeroWord_eq_one]

theorem divWords_eq (a b : Word) : divWords a b =
    if ¬ Valid a ∨ ¬ Valid b then .error .invalidOperand
    else if N b = 0 then .error .divisionByZero
    else if N a = 0 then .ok 1
    else reduce (N a * D b) (D a * N b) := by
  simp only [divWords, checkFrac_both, num_eq_N, den_eq_D, zeroWord_eq_one]

theorem reduceWord_eq (a : Word) :
    reduceWord a = if Valid a then reduce (N a) (D a) else .error .invalidOperand := by
  simp only [reduceWord, checkFrac_eq, num_eq_N, den_eq_D]

/-- The case of a zero fraction needs no branch of its own: 0 divided by any denominator is 0. -/
theorem toIntWord_eq (a : Word) :
    toIntWord a = if Valid a then .ok (BitVec.ofNat 256 (N a / D a)) else .error .invalidOperand := by
  simp only [toIntWord, checkFrac_eq, num_eq_N, den_eq_D, zext]
  by_cases hn : N a = 0
  · simp [hn]
  · rw [if_neg hn]

theorem comparing_eq (a b : Word) (code : Comparison → Word) : comparing a b code =
    if ¬ Valid a ∨ ¬ Valid b then .error .invalidOperand else .ok (code (compareWords a b)) := by
  simp only [comparing, checkFrac_both]

/-! ## Euclid's loop and Reduce -/

/-- As many turns as the second number are enough, since it decreases at each turn (R90). -/
theorem gcdLoop_eq_gcd (turns x y : Nat) (h : y ≤ turns) : gcdLoop turns x y = Nat.gcd x y := by
  induction turns generalizing x y with
  | zero =>
    obtain rfl : y = 0 := by omega
    simp [gcdLoop]
  | succ turns ih =>
    by_cases hy : y = 0
    · simp [gcdLoop, hy]
    · have hlt : x % y < y := Nat.mod_lt _ (Nat.pos_of_ne_zero hy)
      rw [gcdLoop, if_neg hy, ih y (x % y) (by omega), Nat.gcd_comm x y, Nat.gcd_rec y x, Nat.gcd_comm]

theorem euclidGcd_eq_gcd (a b : Nat) : euclidGcd a b = Nat.gcd a b := gcdLoop_eq_gcd b a b le_rfl

/-- Reduce with the library's gcd and the fields as plain numbers (R91). -/
theorem reduce_eq (n d : Nat) : reduce n d =
    if n = 0 then (if d < 2 ^ 128 then .ok (wordOf 0 d) else .error .overflow)
    else if n / Nat.gcd n d < 2 ^ 128 ∧ d / Nat.gcd n d < 2 ^ 128 then
      .ok (wordOf (n / Nat.gcd n d) (d / Nat.gcd n d))
    else .error .overflow := by
  have fits (m : Nat) : m > Config.MAX128 ↔ ¬ m < 2 ^ 128 := by
    simp only [Config.MAX128]
    omega
  simp only [reduce, euclidGcd_eq_gcd, fits, ite_not, ite_and]
  split_ifs with hn hd hnum hden
  · rw [pack_eq_wordOf (by decide) hd]
  · rfl
  · rw [pack_eq_wordOf hnum hden]
  · rfl
  · rfl

/-- Overflow is the only error of Reduce. -/
theorem reduce_ne_error {e : ErrorKind} (he : e ≠ .overflow) (n d : Nat) : reduce n d ≠ .error e := by
  rw [reduce_eq]
  split_ifs <;> simp [he.symm]

/-- A pair whose fields fit has a reduced pair that fits: REDUCE never overflows (R94). -/
theorem reduce_fits {n d : Nat} (hn : n < 2 ^ 128) (hd : d < 2 ^ 128) : ∃ w, reduce n d = .ok w := by
  have hnum : n / Nat.gcd n d < 2 ^ 128 := (Nat.div_le_self _ _).trans_lt hn
  have hden : d / Nat.gcd n d < 2 ^ 128 := (Nat.div_le_self _ _).trans_lt hd
  rw [reduce_eq]
  by_cases h0 : n = 0
  · exact ⟨wordOf 0 d, by rw [if_pos h0, if_pos hd]⟩
  · exact ⟨_, by rw [if_neg h0, if_pos ⟨hnum, hden⟩]⟩

end Sys2Proof.Machine
end

section
/-! Proofs: the rational number a word stands for, and the answers that are exact on it (00_scope.md R3, R8). -/

namespace Sys2Proof.Machine

open Sys2Proof.Safety

/-! ## The value of a word -/

theorem value_wordOf {n d : Nat} (hn : n < 2 ^ 128) (hd : d < 2 ^ 128) : value (wordOf n d) = (n : ℚ) / d := by
  rw [value, N_wordOf hn hd, D_wordOf hd]

theorem value_of_N_eq_zero {w : Word} (h : N w = 0) : value w = 0 := by simp [value, h]

/-- The canonical zero is the word 1 (R23). -/
theorem value_one : value 1 = 0 := value_of_N_eq_zero (by decide)

theorem D_ne_zero {w : Word} (hw : Valid w) (h : N w ≠ 0) : D w ≠ 0 := hw.resolve_left h

theorem value_eq_zero_iff {w : Word} (hw : Valid w) : value w = 0 ↔ N w = 0 := by
  refine ⟨fun hv => ?_, value_of_N_eq_zero⟩
  by_contra hn
  simp [value, hn, D_ne_zero hw hn] at hv

theorem value_nonneg (w : Word) : 0 ≤ value w := by
  unfold value
  positivity

/-- Fractions with positive denominators are ordered by their cross products. -/
theorem value_lt_iff_cross {x y : Word} (hx : D x ≠ 0) (hy : D y ≠ 0) :
    value x < value y ↔ N x * D y < N y * D x := by
  have hx' : (0 : ℚ) < D x := by exact_mod_cast Nat.pos_of_ne_zero hx
  have hy' : (0 : ℚ) < D y := by exact_mod_cast Nat.pos_of_ne_zero hy
  rw [value, value, div_lt_div_iff₀ hx' hy']
  exact_mod_cast Iff.rfl

/-! ## Exact answers -/

/-- The answer, where it is a word, is one that stands for the rational number q. -/
def Exact (r : Answer) (q : ℚ) : Prop := ∀ v, r = .ok v → value v = q

theorem exact_ok {v : Word} {q : ℚ} (h : value v = q) : Exact (.ok v) q := by
  rintro _ ⟨⟩
  exact h

theorem exact_error (e : ErrorKind) (q : ℚ) : Exact (.error e) q := by
  rintro _ ⟨⟩

/-- Dividing both fields by their gcd keeps the quotient, so Reduce is exact (R93 a). -/
theorem exact_reduce (n d : Nat) : Exact (reduce n d) ((n : ℚ) / d) := by
  rw [reduce_eq]
  split_ifs with hn hd hfit
  · exact exact_ok (by rw [value_wordOf (by decide) hd, hn])
  · exact exact_error _ _
  · refine exact_ok ?_
    have hg : ((Nat.gcd n d : ℕ) : ℚ) ≠ 0 := by exact_mod_cast Nat.gcd_ne_zero_left hn
    rw [value_wordOf hfit.1 hfit.2, Nat.cast_div (Nat.gcd_dvd_left n d) hg, Nat.cast_div (Nat.gcd_dvd_right n d) hg,
      div_div_div_cancel_right₀ hg]
  · exact exact_error _ _

/-- An exact answer is what a successful command leaves in RES. -/
theorem value_resultOf {i : Instr} {x y : Word} {r : Answer} {q : ℚ} (ht : transact (encode i) x y = outcome r)
    (hr : Exact r q) (hs : Succeeds i x y) : value (resultOf i x y) = q := by
  simp only [Succeeds, statusAfter, ht] at hs
  obtain ⟨v, rfl⟩ := (outcome_status_ok_iff r).1 hs
  simpa [resultOf, ht] using hr v rfl

section
variable {x y : Word} (hx : Valid x) (hy : Valid y)
include hx hy

theorem exact_addWords : Exact (addWords x y) (value x + value y) := by
  rw [addWords_eq, if_neg (by simp [hx, hy])]
  split_ifs with hxn hyn
  · exact exact_ok (by rw [value_of_N_eq_zero hxn, zero_add])
  · exact exact_ok (by rw [value_of_N_eq_zero hyn, add_zero])
  · have hxd : (D x : ℚ) ≠ 0 := by exact_mod_cast D_ne_zero hx hxn
    have hyd : (D y : ℚ) ≠ 0 := by exact_mod_cast D_ne_zero hy hyn
    have hsum : value x + value y = ((N x * D y + N y * D x : ℕ) : ℚ) / (D x * D y : ℕ) := by
      push_cast [value]
      rw [div_add_div _ _ hxd hyd, mul_comm (D x : ℚ) (N y)]
    rw [hsum]
    exact exact_reduce _ _

theorem exact_subWords : Exact (subWords x y) (value x - value y) := by
  rw [subWords_eq, if_neg (by simp [hx, hy])]
  split_ifs with hyn hxn hlt
  · exact exact_ok (by rw [value_of_N_eq_zero hyn, sub_zero])
  · exact exact_error _ _
  · exact exact_error _ _
  · have hxd : (D x : ℚ) ≠ 0 := by exact_mod_cast D_ne_zero hx hxn
    have hyd : (D y : ℚ) ≠ 0 := by exact_mod_cast D_ne_zero hy hyn
    have hdiff : value x - value y = ((N x * D y - N y * D x : ℕ) : ℚ) / (D x * D y : ℕ) := by
      push_cast [value, Nat.cast_sub (not_lt.1 hlt)]
      rw [div_sub_div _ _ hxd hyd, mul_comm (D x : ℚ) (N y)]
    rw [hdiff]
    exact exact_reduce _ _

theorem exact_mulWords : Exact (mulWords x y) (value x * value y) := by
  rw [mulWords_eq, if_neg (by simp [hx, hy])]
  split_ifs with hzero
  · refine exact_ok ?_
    rcases hzero with hxn | hyn
    · rw [value_one, value_of_N_eq_zero hxn, zero_mul]
    · rw [value_one, value_of_N_eq_zero hyn, mul_zero]
  · have hprod : value x * value y = ((N x * N y : ℕ) : ℚ) / (D x * D y : ℕ) := by
      push_cast [value]
      exact div_mul_div_comm _ _ _ _
    rw [hprod]
    exact exact_reduce _ _

theorem exact_divWords : Exact (divWords x y) (value x / value y) := by
  rw [divWords_eq, if_neg (by simp [hx, hy])]
  split_ifs with hyn hxn
  · exact exact_error _ _
  · exact exact_ok (by rw [value_one, value_of_N_eq_zero hxn, zero_div])
  · have hquot : value x / value y = ((N x * D y : ℕ) : ℚ) / (D x * N y : ℕ) := by
      push_cast [value]
      rw [div_div_div_eq]
    rw [hquot]
    exact exact_reduce _ _

/-! ## Errors and comparisons -/

/-- SUB ends in Underflow exactly where the difference is negative (R102). -/
theorem subWords_underflow_iff : subWords x y = .error .underflow ↔ value x < value y := by
  rw [subWords_eq, if_neg (by simp [hx, hy])]
  split_ifs with hyn hxn hlt
  · have : ¬ value x < value y := by
      rw [value_of_N_eq_zero hyn]
      exact not_lt.2 (value_nonneg x)
    simp [this]
  · have : 0 < value y := lt_of_le_of_ne (value_nonneg y) (fun h => hyn ((value_eq_zero_iff hy).1 h.symm))
    simp [value_of_N_eq_zero hxn, this]
  · simpa using (value_lt_iff_cross (D_ne_zero hx hxn) (D_ne_zero hy hyn)).2 hlt
  · rw [value_lt_iff_cross (D_ne_zero hx hxn) (D_ne_zero hy hyn)]
    exact iff_of_false (reduce_ne_error (by decide) _ _) hlt

/-- DIV ends in DivisionByZero exactly where the divisor is zero (R120). -/
theorem divWords_divisionByZero_iff : divWords x y = .error .divisionByZero ↔ value y = 0 := by
  rw [divWords_eq, if_neg (by simp [hx, hy]), value_eq_zero_iff hy]
  split_ifs with hyn hxn
  · simp [hyn]
  · simp [hyn]
  · exact iff_of_false (reduce_ne_error (by decide) _ _) hyn

end

/-- The pair a valid word is compared as stands for its value, over a positive denominator (R130). -/
theorem comparedAs_spec {w : Word} (hw : Valid w) :
    value w = ((comparedAs w).1 : ℚ) / (comparedAs w).2 ∧ (0 : ℚ) < (comparedAs w).2 := by
  by_cases hn : N w = 0
  · simp [comparedAs, num_eq_N, hn, value_of_N_eq_zero hn]
  · simp [comparedAs, num_eq_N, den_eq_D, hn, value, Nat.pos_of_ne_zero (D_ne_zero hw hn)]

/-- `Compare` is the order of the rationals (R130). -/
theorem compareWords_eq {x y : Word} (hx : Valid x) (hy : Valid y) : compareWords x y =
    if value x < value y then .less else if value x = value y then .equal else .greater := by
  obtain ⟨hvx, hdx⟩ := comparedAs_spec hx
  obtain ⟨hvy, hdy⟩ := comparedAs_spec hy
  have hlt : (comparedAs x).1 * (comparedAs y).2 < (comparedAs y).1 * (comparedAs x).2 ↔ value x < value y := by
    rw [hvx, hvy, div_lt_div_iff₀ hdx hdy]
    exact_mod_cast Iff.rfl
  have heq : (comparedAs x).1 * (comparedAs y).2 = (comparedAs y).1 * (comparedAs x).2 ↔ value x = value y := by
    rw [hvx, hvy, div_eq_div_iff hdx.ne' hdy.ne']
    exact_mod_cast Iff.rfl
  simp only [compareWords, hlt, heq]

theorem resultOf_cmp {x y : Word} (hx : Valid x) (hy : Valid y) : resultOf .cmp x y =
    if value x < value y then 0 else if value x = value y then 1 else 2 := by
  rw [resultOf, transact_cmp, comparing_eq, if_neg (by simp [hx, hy]), outcome_ok, compareWords_eq hx hy]
  split_ifs <;> rfl

/-- The three codes of CMP tell the three orders apart (R129, R131). -/
theorem resultOf_cmp_iff {x y : Word} (hx : Valid x) (hy : Valid y) :
    (resultOf .cmp x y = 0 ↔ value x < value y) ∧ (resultOf .cmp x y = 1 ↔ value x = value y) ∧
      (resultOf .cmp x y = 2 ↔ value y < value x) := by
  rw [resultOf_cmp hx hy]
  rcases lt_trichotomy (value x) (value y) with h | h | h
  · simp [h, h.ne, h.not_gt]
  · simp [h]
  · simp [h, h.ne', h.not_gt]

/-! ## The commands of one operand -/

theorem reduce_succeeds_exact {x : Word} (hx : Valid x) (y : Word) :
    Succeeds .reduce x y ∧ value (resultOf .reduce x y) = value x := by
  have hr : reduceWord x = reduce (N x) (D x) := by rw [reduceWord_eq, if_pos hx]
  have hs : Succeeds .reduce x y := by
    rw [Succeeds, statusAfter, transact_reduce, outcome_status_ok_iff, hr]
    exact reduce_fits (N_lt x) (D_lt x)
  exact ⟨hs, value_resultOf (transact_reduce x y) (hr ▸ exact_reduce (N x) (D x)) hs⟩

theorem toint_succeeds_floor {x : Word} (hx : Valid x) (y : Word) :
    Succeeds .toint x y ∧ (resultOf .toint x y).toNat = ⌊value x⌋₊ := by
  have ht : transact (encode .toint) x y = (BitVec.ofNat 256 (N x / D x), 0x08) := by
    rw [transact_toint, toIntWord_eq, if_pos hx, outcome_ok]
  have hfit : N x / D x < 2 ^ 256 := by
    have := Nat.div_le_self (N x) (D x)
    have := N_lt x
    omega
  refine ⟨by rw [Succeeds, statusAfter, ht], ?_⟩
  rw [resultOf, ht, BitVec.toNat_ofNat, Nat.mod_eq_of_lt hfit, value, Nat.floor_div_eq_div]

/-- Settles O53: each answer is exact on the values, and each error and comparison code is a test of them. -/
theorem arithmeticIsExactOnRationals : Obligations.ArithmeticIsExactOnRationals := by
  intro x y hx hy
  have hUnderflow : statusAfter .sub x y = 0x02 ↔ value x < value y := by
    rw [statusAfter, transact_sub, ← subWords_underflow_iff hx hy]
    exact outcome_status_error_iff _ .underflow
  have hDivisionByZero : statusAfter .div x y = 0x03 ↔ value y = 0 := by
    rw [statusAfter, transact_div, ← divWords_divisionByZero_iff hx hy]
    exact outcome_status_error_iff _ .divisionByZero
  exact ⟨value_resultOf (transact_add x y) (exact_addWords hx hy),
    value_resultOf (transact_sub x y) (exact_subWords hx hy),
    value_resultOf (transact_mul x y) (exact_mulWords hx hy),
    value_resultOf (transact_div x y) (exact_divWords hx hy),
    reduce_succeeds_exact hx y, toint_succeeds_floor hx y, hUnderflow, hDivisionByZero, resultOf_cmp_iff hx hy⟩

end Sys2Proof.Machine
end

section
/-! Proofs: the registers of the block. The STATUS port, the invariant kept by every step, and the latches that an idle
block never reads (10_state.md R29 to R34, 70_reset_and_hazards.md R170, R177). -/

namespace Sys2Proof.Machine

open Sys2Proof.Safety

/-! ## STATUS and its port -/

/-- The port masks the register down to its low four bits (R30). -/
theorem statusPort_toNat (s : State) : s.statusPort.toNat = s.status.toNat % 16 := by
  rw [State.statusPort, BitVec.toNat_and]
  exact Nat.and_two_pow_sub_one_eq_mod s.status.toNat 4

theorem errField_toNat (st : StatusWord) : (errField st).toNat = errOf st := by
  simp [errField, errOf]

/-- Settles O16: the port is the register modulo 16, which keeps both fields. -/
theorem statusPortReadsItsTwoFields : Obligations.StatusPortReadsItsTwoFields := by
  intro s
  have hport := statusPort_toNat s
  refine ⟨by omega, ?_, rvField_statusPort s, rfl⟩
  rw [errField_toNat, errOf, errOf, hport]
  omega

/-- Settles O15: the read answers by RV of the register, which is what the port shows. -/
theorem readingResultNeedsRV : Obligations.ReadingResultNeedsRV := by
  intro s rest hhost
  have hport : rvField ({ s with host := rest } : State).statusPort = true ↔ RV s.status := rvField_statusPort _
  rw [step_readResult hhost]
  rcases readResult_cases (s := { s with host := rest }) with ⟨hrv, hread⟩ | ⟨hrv, hread⟩
  · exact ⟨fun hn => absurd (hport.1 hrv) hn, fun _ => hread⟩
  · exact ⟨fun _ => hread, fun hy => absurd (hport.2 hy) (by simp [hrv])⟩

theorem statusOk_toNat : statusOk.toNat = 8 := by decide

/-- An error leaves its code alone in STATUS: RV and the reserved bits are 0 (60_exceptions.md R154). -/
theorem statusError_toNat (e : ErrorKind) : (statusError e).toNat = e.code.toNat := by cases e <;> decide

/-! ## The invariant -/

/-- A reset establishes the invariant whatever the state was (R34, R170). -/
theorem blockInv_resetRegs (s : State) : BlockInv (resetRegs s) := by
  simp [BlockInv, AtReset, errOf]

/-- So does a completion out of reset: it writes RES and STATUS together (R154, R155). -/
theorem blockInv_complete (r : Answer) {s : State} (hlow : s.pins.rst = false) : BlockInv (complete r s) := by
  cases r with
  | ok v =>
    show BlockInv (completeOk v s)
    have hne : ¬ statusOk = 0#8 := by decide
    simp [BlockInv, errOf, statusOk_toNat, hlow, hne]
  | error e =>
    show BlockInv (completeError e s)
    have hcode := code_range e
    have hne : statusError e ≠ 0 := by cases e <;> decide
    simp only [BlockInv, RV, errOf, completeError_status, completeError_res, completeError_pins, completeError_busy,
      statusError_toNat, hlow]
    exact ⟨by omega, by omega, by omega, fun _ => trivial, by simp, fun _ => ⟨trivial, hne⟩⟩

/-- An event out of reset that leaves RES and STATUS alone keeps the invariant, if RSP_VALID keeps its meaning. -/
theorem blockInv_of_same_registers {s t : State} (hs : BlockInv s) (hres : t.res = s.res)
    (hstatus : t.status = s.status) (hlow : t.pins.rst = false)
    (hrsp : t.rspValid = true → t.busy = false ∧ t.status ≠ 0) : BlockInv t := by
  obtain ⟨hreserved, herr, hrv, hzero, -, -⟩ := hs
  unfold BlockInv
  rw [hres, hstatus]
  exact ⟨hreserved, herr, hrv, hzero, by simp [hlow], hstatus ▸ hrsp⟩

/-- The host's drive of the ports resets the registers or leaves them as they were (R170). -/
theorem blockInv_drivePins {s : State} (hs : BlockInv s) (p : Pins) : BlockInv (drivePins p s) := by
  cases hp : p.rst with
  | true =>
    rw [drivePins_high s hp]
    exact blockInv_resetRegs _
  | false =>
    rw [drivePins_low s hp]
    have ⟨_, _, _, _, _, hrsp⟩ := hs
    exact blockInv_of_same_registers hs rfl rfl hp hrsp

/-- Settles O19, by the kinds of event: a reset and a completion establish the invariant, every other event leaves RES
and STATUS alone. -/
theorem stepKeepsBlockInv : Obligations.StepKeepsBlockInv := by
  intro s t hinv hstep
  obtain ⟨rest, hevent⟩ := step_cases hstep
  have hs : BlockInv { s with host := rest } := hinv
  rcases hevent with ⟨rfl, -⟩ | ⟨r, rfl, hlow, -⟩ | ⟨n, rfl, hlow, -⟩ | ⟨rfl, hlow, -⟩ | ⟨rfl, hlow, -⟩ | ⟨p, rfl, -⟩ |
    ⟨rfl, -⟩
  · exact blockInv_resetRegs _
  · exact blockInv_complete r hlow
  · exact blockInv_of_same_registers hs rfl rfl hlow (by simp)
  · exact blockInv_of_same_registers hs rfl rfl hlow (by simp)
  · exact blockInv_of_same_registers hs rfl rfl hlow (by simp)
  · exact blockInv_drivePins hs p
  · exact hinv

/-- Settles O18: the state after reset is one that a reset leaves. -/
theorem resetMeetsBlockInv : Obligations.ResetMeetsBlockInv := blockInv_resetRegs State.reset

/-! ## The hidden latches -/

theorem blockEvent_of_rst {s : State} (hrst : s.pins.rst = true) : blockEvent s = .next (resetRegs s) := by
  simp [blockEvent, hrst]

theorem blockEvent_of_request {s : State} (hrst : s.pins.rst = false) (hidle : s.busy = false)
    (hreq : s.pins.reqValid = true) : blockEvent s = .next (accept s) := by
  simp [blockEvent, hrst, hidle, hreq]

theorem blockEvent_of_no_request {s : State} (hrst : s.pins.rst = false) (hidle : s.busy = false)
    (hreq : s.pins.reqValid = false) : blockEvent s = .next (idle s) := by
  simp [blockEvent, hrst, hidle, hreq]

/-- The state with other contents of CMD_L, A, B and the working registers. -/
def withHidden (c : CmdWord) (a b : Word) (w : List Nat) (s : State) : State :=
  { s with cmdL := c, latA := a, latB := b, work := w }

/-- What an event answers with other hidden contents, as far as the outside can tell: the same fault, and the same next
state but for those contents, which only an idle block still holds. -/
def SameButHidden (c : CmdWord) (a b : Word) (w : List Nat) (o o' : Host.Outcome State Fault Refusal) : Prop :=
  (∀ f, o = .fault f → o' = .fault f) ∧
    ∀ t, o = .next t → o' = .next t ∨ (t.busy = false ∧ o' = .next (withHidden c a b w t))

section
variable (c : CmdWord) (a b : Word) (w : List Nat)

theorem sameButHidden_refl (o : Host.Outcome State Fault Refusal) : SameButHidden c a b w o o :=
  ⟨fun _ h => h, fun _ h => .inl h⟩

theorem sameButHidden_next {t : State} (hidle : t.busy = false) :
    SameButHidden c a b w (.next t) (.next (withHidden c a b w t)) := by
  refine ⟨nofun, ?_⟩
  rintro _ ⟨⟩
  exact .inr ⟨hidle, rfl⟩

/-- A reset and an acceptance overwrite the hidden fields, an idle event leaves them alone (R34). -/
theorem blockEvent_withHidden {s : State} (hidle : s.busy = false) :
    SameButHidden c a b w (blockEvent s) (blockEvent (withHidden c a b w s)) := by
  cases hrst : s.pins.rst with
  | true =>
    rw [blockEvent_of_rst hrst, blockEvent_of_rst (s := withHidden c a b w s) hrst]
    exact sameButHidden_refl c a b w (.next (resetRegs s))
  | false =>
    cases hreq : s.pins.reqValid with
    | true =>
      rw [blockEvent_of_request hrst hidle hreq, blockEvent_of_request (s := withHidden c a b w s) hrst hidle hreq]
      exact sameButHidden_refl c a b w (.next (accept s))
    | false =>
      rw [blockEvent_of_no_request hrst hidle hreq,
        blockEvent_of_no_request (s := withHidden c a b w s) hrst hidle hreq]
      exact sameButHidden_next c a b w (t := idle s) hidle

/-- The host's drive resets the hidden fields or leaves them alone. -/
theorem drivePins_withHidden {s : State} (hidle : s.busy = false) (p : Pins) :
    SameButHidden c a b w (.next (drivePins p s)) (.next (drivePins p (withHidden c a b w s))) := by
  cases hp : p.rst with
  | true =>
    rw [drivePins_high _ hp, drivePins_high _ hp]
    exact sameButHidden_refl ..
  | false =>
    rw [drivePins_low _ hp, drivePins_low _ hp]
    exact sameButHidden_next c a b w (t := { s with pins := p }) hidle

/-- The host's read looks at RES and STATUS only (R177). -/
theorem readResult_withHidden {s : State} (hidle : s.busy = false) :
    SameButHidden c a b w (readResult s) (readResult (withHidden c a b w s)) := by
  unfold readResult
  show SameButHidden c a b w _ (if rvField s.statusPort then _ else _)
  split
  · exact sameButHidden_next c a b w (t := { s with held := s.held ++ [s.resPort] }) hidle
  · exact sameButHidden_refl ..

theorem step_withHidden {s : State} (hidle : s.busy = false) :
    SameButHidden c a b w (step s) (step (withHidden c a b w s)) := by
  rcases step_kinds s with ⟨rest, hmoves⟩ | ⟨p, rest, hhost⟩ | ⟨rest, hhost⟩
  · rw [step_of_blockMoves hmoves, step_of_blockMoves (s := withHidden c a b w s) hmoves]
    exact blockEvent_withHidden c a b w (s := { s with host := rest }) hidle
  · rw [step_drive hhost, step_drive (s := withHidden c a b w s) hhost]
    exact drivePins_withHidden c a b w (s := { s with host := rest }) hidle p
  · rw [step_readResult hhost, step_readResult (s := withHidden c a b w s) hhost]
    exact readResult_withHidden c a b w (s := { s with host := rest }) hidle

end

/-- Settles O17: `State.reset` has the reset values, and no kind of step of an idle block reads a hidden field. -/
theorem resetValuesAndHiddenLatches : Obligations.ResetValuesAndHiddenLatches :=
  ⟨⟨rfl, rfl, rfl, rfl, rfl⟩, fun _ c a b w hidle => step_withHidden c a b w hidle⟩

end Sys2Proof.Machine
end

section
/-! Proofs: arithmetic leaves lowest terms (10_state.md R27, 41_gcd_normalizer.md R93). -/

namespace Sys2Proof.Machine

open Sys2Proof.Safety

/-! ## Answers of successful commands -/

theorem transact_fromint (a b : Word) : transact (encode .fromint) a b = outcome (fromIntWord a) :=
  transact_encode (f := fun a _ => fromIntWord a) (fun _ => rfl) a b

theorem transact_zero (a b : Word) : transact (encode .zero) a b = outcome (.ok zeroWord) :=
  transact_encode (f := fun _ _ => .ok zeroWord) (fun _ => rfl) a b

/-- A command that succeeds answers the word it leaves in RES. -/
theorem answer_eq_ok_resultOf {i : Instr} {x y : Word} {r : Answer} (ht : transact (encode i) x y = outcome r)
    (hs : Succeeds i x y) : r = .ok (resultOf i x y) := by
  simp only [Succeeds, statusAfter, ht] at hs
  obtain ⟨v, rfl⟩ := (outcome_status_ok_iff r).1 hs
  simp [resultOf, ht]

/-! ## Words in lowest terms -/

theorem lowestTerms_of_N_eq_zero {w : Word} (h : N w = 0) : LowestTerms w := ⟨.inl h, fun hn => absurd h hn⟩

/-- In lowest terms with a denominator of at least 1: what every result through Reduce is (R27 a, b). -/
def Normalised (w : Word) : Prop := LowestTerms w ∧ 1 ≤ D w

theorem normalised_one : Normalised 1 := ⟨lowestTerms_of_N_eq_zero (by decide), by decide⟩

theorem normalised_wordOf {n d : Nat} (hn : n < 2 ^ 128) (hd : d < 2 ^ 128) (hpos : d ≠ 0)
    (hgcd : n ≠ 0 → Nat.gcd n d = 1) : Normalised (wordOf n d) := by
  simp only [Normalised, LowestTerms, Valid, N_wordOf hn hd, D_wordOf hd]
  exact ⟨⟨.inr hpos, hgcd⟩, Nat.pos_of_ne_zero hpos⟩

/-- Reduce of a pair with a denominator leaves lowest terms, a zero numerator's own denominator included (R93 b, c). -/
theorem reduce_normalised {n d : Nat} {v : Word} (hd : d ≠ 0) (h : reduce n d = .ok v) : Normalised v := by
  rw [reduce_eq] at h
  split_ifs at h with hn hfit hfits
  · cases h
    exact normalised_wordOf (by decide) hfit hd (absurd rfl)
  · cases h
    obtain ⟨hnum, hden⟩ := hfits
    have hpos : 0 < d / Nat.gcd n d := Nat.div_gcd_pos_of_pos_right n (Nat.pos_of_ne_zero hd)
    exact normalised_wordOf hnum hden hpos.ne' fun _ => Nat.gcd_div_gcd_div_gcd_of_pos_left (Nat.pos_of_ne_zero hn)

/-! ## The commands -/

section
variable {x y v : Word}

/-- The product of two non-zero operands' denominators is a denominator, where both operand checks are passed. -/
theorem D_mul_D_ne_zero (hvalid : ¬ (¬ Valid x ∨ ¬ Valid y)) (hx : N x ≠ 0) (hy : N y ≠ 0) : D x * D y ≠ 0 := by
  obtain ⟨hvx, hvy⟩ : Valid x ∧ Valid y := by tauto
  exact mul_ne_zero (D_ne_zero hvx hx) (D_ne_zero hvy hy)

/-- ADD passes one operand on, or reduces (R101). -/
theorem addWords_ok_cases (h : addWords x y = .ok v) : (N x = 0 ∧ v = y) ∨ (N y = 0 ∧ v = x) ∨ Normalised v := by
  rw [addWords_eq] at h
  split_ifs at h with hvalid hx hy
  · cases h; exact .inl ⟨hx, rfl⟩
  · cases h; exact .inr (.inl ⟨hy, rfl⟩)
  · exact .inr (.inr (reduce_normalised (D_mul_D_ne_zero hvalid hx hy) h))

/-- SUB passes the minuend on, or reduces (R102). -/
theorem subWords_ok_cases (h : subWords x y = .ok v) : (N y = 0 ∧ v = x) ∨ Normalised v := by
  rw [subWords_eq] at h
  split_ifs at h with hvalid hy hx hlt
  · cases h; exact .inl ⟨hy, rfl⟩
  · exact .inr (reduce_normalised (D_mul_D_ne_zero hvalid hx hy) h)

theorem mulWords_normalised (h : mulWords x y = .ok v) : Normalised v := by
  rw [mulWords_eq] at h
  split_ifs at h with hvalid hzero
  · cases h; exact normalised_one
  · obtain ⟨hx, hy⟩ := not_or.1 hzero
    exact reduce_normalised (D_mul_D_ne_zero hvalid hx hy) h

/-- The divisor's numerator becomes a factor of the denominator, and it is not zero where DIV succeeds (R120). -/
theorem divWords_normalised (h : divWords x y = .ok v) : Normalised v := by
  rw [divWords_eq] at h
  split_ifs at h with hvalid hy hx
  · cases h; exact normalised_one
  · have hvx : Valid x := by tauto
    exact reduce_normalised (mul_ne_zero (D_ne_zero hvx hx) hy) h

/-- REDUCE passes a zero fraction on, the raw zero pattern included, or reduces (R94). -/
theorem reduceWord_ok_cases (h : reduceWord x = .ok v) : (N x = 0 ∧ v = x) ∨ Normalised v := by
  rw [reduceWord_eq] at h
  split_ifs at h with hvalid
  by_cases hx : N x = 0
  · rw [reduce_eq, if_pos hx, if_pos (D_lt x)] at h
    cases h
    exact .inl ⟨hx, by rw [← hx, wordOf_N_D]⟩
  · exact .inr (reduce_normalised (D_ne_zero hvalid hx) h)

theorem fromIntWord_normalised (h : fromIntWord x = .ok v) : Normalised v := by
  rw [fromIntWord, checkInt_eq] at h
  split_ifs at h with hfit
  cases h
  rw [pack_eq_wordOf hfit (by decide)]
  exact normalised_wordOf hfit (by decide) (by decide) fun _ => Nat.gcd_one_right _

end

/-- Settles O52: each result is an operand passed on or a normalised word. -/
theorem arithmeticKeepsLowestTerms : Obligations.ArithmeticKeepsLowestTerms := by
  have hadd {x y} (hs : Succeeds .add x y) := addWords_ok_cases (answer_eq_ok_resultOf (transact_add x y) hs)
  have hsub {x y} (hs : Succeeds .sub x y) := subWords_ok_cases (answer_eq_ok_resultOf (transact_sub x y) hs)
  have hmul {x y} (hs : Succeeds .mul x y) := mulWords_normalised (answer_eq_ok_resultOf (transact_mul x y) hs)
  have hdiv {x y} (hs : Succeeds .div x y) := divWords_normalised (answer_eq_ok_resultOf (transact_div x y) hs)
  have hreduce {x y} (hs : Succeeds .reduce x y) :=
    reduceWord_ok_cases (answer_eq_ok_resultOf (transact_reduce x y) hs)
  have hfromint {x y} (hs : Succeeds .fromint x y) :=
    fromIntWord_normalised (answer_eq_ok_resultOf (transact_fromint x y) hs)
  have hzero (x y : Word) : resultOf .zero x y = 1 := by
    rw [resultOf, transact_zero, outcome_ok, zeroWord_eq_one]
  refine ⟨fun i hi x y hx hy hs => ?_, fun i hi x y hs => ?_, fun i hi x y hx hy hs => ?_, fun x y hx hs => ?_,
    fun i hi x y hs => ?_⟩
  · obtain rfl | rfl | rfl | rfl | rfl : i = .reduce ∨ i = .add ∨ i = .sub ∨ i = .mul ∨ i = .div := by simpa using hi
    · obtain ⟨-, hv⟩ | hv := hreduce hs
      · rwa [hv]
      · exact hv.1
    · obtain ⟨-, hv⟩ | ⟨-, hv⟩ | hv := hadd hs
      · rwa [hv]
      · rwa [hv]
      · exact hv.1
    · obtain ⟨-, hv⟩ | hv := hsub hs
      · rwa [hv]
      · exact hv.1
    · exact (hmul hs).1
    · exact (hdiv hs).1
  · obtain rfl | rfl : i = .mul ∨ i = .div := by simpa using hi
    · exact hmul hs
    · exact hdiv hs
  · obtain rfl | rfl : i = .add ∨ i = .sub := by simpa using hi
    · exact ((hadd hs).resolve_left fun h => hx h.1).resolve_left fun h => hy h.1
    · exact (hsub hs).resolve_left fun h => hy h.1
  · exact (hreduce hs).resolve_left fun h => hx h.1
  · obtain rfl | rfl : i = .fromint ∨ i = .zero := by simpa using hi
    · exact (hfromint hs).1
    · rw [hzero]
      exact normalised_one.1

end Sys2Proof.Machine
end

section
/-! Proofs: the instances of a platform, and the serialised form of a word (20_memory.md R39, R44). -/

namespace Sys2Proof.Machine

/-! ## Instances -/

/-- All that an event of instance k can do to a platform: nothing, where there is no instance k, or that instance's own
step at its own place. -/
theorem stepInstance_cases {k : Nat} {ps qs : Platform} (h : stepInstance k ps = .next qs) :
    (ps[k]? = none ∧ qs = ps) ∨ ∃ s t, ps[k]? = some s ∧ step s = .next t ∧ qs = ps.set k t := by
  unfold stepInstance at h
  split at h
  · cases h; exact .inl ⟨‹_›, rfl⟩
  · split at h
    · cases h; exact .inr ⟨_, _, ‹_›, ‹_›, rfl⟩
    · cases h
    · cases h

/-- Settles O20: at most the entry of instance k is replaced. -/
theorem instancesAreIndependent : Obligations.InstancesAreIndependent := by
  intro ps qs k h
  obtain ⟨hnone, rfl⟩ | ⟨s, t, hs, hstep, rfl⟩ := stepInstance_cases h
  · exact ⟨fun _ _ => rfl, by simp [hnone]⟩
  · refine ⟨fun j hj => List.getElem?_set_ne hj.symm, fun s' hs' => ?_⟩
    obtain rfl : s = s' := Option.some.inj (hs.symm.trans hs')
    have hk : k < ps.length := (List.getElem?_eq_some_iff.1 hs).1
    exact ⟨t, hstep, List.getElem?_set_self hk⟩

/-! ## Serialised forms -/

/-- A legal byte order is an arrangement of 0 to 31: it names each of them, and has no room for a repeat. -/
theorem byteOrderLegal_perm {o : ByteOrder} (h : byteOrderLegal o = true) : (List.range 32).Perm o := by
  obtain ⟨hlen, hall⟩ : o.length = 32 ∧ ∀ k < 32, k ∈ o := by simpa [byteOrderLegal] using h
  have hsub : List.range 32 ⊆ o := fun k hk => hall k (List.mem_range.1 hk)
  exact (List.nodup_range.subperm hsub).perm_of_length_le (by rw [hlen, List.length_range])

/-- What byte k adds to the integer a host rebuilds (R44). -/
def byteWeight (w : Word) (k : Nat) : Nat := (wordByte w k).toNat * 2 ^ (8 * k)

/-- The rebuilt integer is a sum with one term for each place, so the places' order does not matter to it. -/
theorem rebuild_serialize (o : ByteOrder) (w : Word) : rebuild o (serialize o w) = (o.map (byteWeight w)).sum := by
  induction o with
  | nil => rfl
  | cons k ks ih =>
    rw [List.map_cons, List.sum_cons, ← ih]
    rfl

theorem wordByte_toNat (w : Word) (k : Nat) : (wordByte w k).toNat = w.toNat / 2 ^ (8 * k) % 2 ^ 8 := by
  rw [wordByte, BitVec.extractLsb'_toNat, Nat.shiftRight_eq_div_pow]

/-- The n lowest bytes of a word add up to its 8n lowest bits. -/
theorem sum_byteWeight_range (w : Word) (n : Nat) :
    ((List.range n).map (byteWeight w)).sum = w.toNat % 2 ^ (8 * n) := by
  induction n with
  | zero => simp [Nat.mod_one]
  | succ n ih =>
    have hsplit : w.toNat % 2 ^ (8 * (n + 1)) = w.toNat % 2 ^ (8 * n) + byteWeight w n := by
      rw [byteWeight, wordByte_toNat, Nat.mul_succ, pow_add, Nat.mod_mul, Nat.mul_comm (2 ^ (8 * n))]
    rw [List.range_succ, List.map_append, List.sum_append, ih, hsplit, List.map_singleton, List.sum_singleton]

theorem rebuild_serialize_of_legal {o : ByteOrder} (w : Word) (h : byteOrderLegal o = true) :
    rebuild o (serialize o w) = w.toNat := by
  calc rebuild o (serialize o w)
      = (o.map (byteWeight w)).sum := rebuild_serialize o w
    _ = ((List.range 32).map (byteWeight w)).sum := ((byteOrderLegal_perm h).map _).sum_eq.symm
    _ = w.toNat % 2 ^ (8 * 32) := sum_byteWeight_range w 32
    _ = w.toNat := Nat.mod_eq_of_lt w.isLt

/-- Settles O54: a legal order is a permutation of the bytes, and the rebuilt integer does not depend on their order. -/
theorem serialFormKeepsWord : Obligations.SerialFormKeepsWord := by
  intro o w h
  have hlen : (serialize o w).length = 32 := by
    rw [serialize, List.length_map, ← (byteOrderLegal_perm h).length_eq, List.length_range]
  have hint : rebuild o (serialize o w) = w.toNat := rebuild_serialize_of_legal w h
  refine ⟨hlen, hint, ?_⟩
  rw [deserialize, hint, zext, BitVec.ofNat_toNat, BitVec.setWidth_eq]

end Sys2Proof.Machine
end

section
/-! Proofs: the decoder and the encoder. A word decodes to a command exactly when it is that command's word, and which
words are left over is said in plain numbers (30_encoding.md R50 to R55). -/

namespace Sys2Proof.Machine

open Sys2Proof.Safety

/-! ## The fields of a word -/

theorem opcodeField_toNat (w : CmdWord) : (opcodeField w).toNat = w.toNat % 256 := by
  rw [opcodeField, BitVec.extractLsb'_toNat, Nat.shiftRight_zero]

theorem reservedField_eq_zero_iff (w : CmdWord) : reservedField w = 0 ↔ w.toNat / 256 = 0 := by
  have hlt := w.isLt
  rw [← BitVec.toNat_inj, reservedField, BitVec.extractLsb'_toNat, Nat.shiftRight_eq_div_pow, BitVec.ofNat_eq_ofNat,
    BitVec.toNat_zero]
  omega

/-- A word whose reserved bits are 0 is its opcode byte, zero-extended (R50). -/
theorem setWidth_opcodeField {w : CmdWord} (h : reservedField w = 0) : (opcodeField w).setWidth 32 = w := by
  have hreserved := (reservedField_eq_zero_iff w).1 h
  apply BitVec.eq_of_toNat_eq
  rw [BitVec.toNat_setWidth, opcodeField_toNat]
  omega

/-! ## Decoding against the opcode map -/

theorem mem_of_lookupOpcode {o : Opcode} {i : Instr} {rows : List (Opcode × Instr)}
    (h : lookupOpcode o rows = some i) : (o, i) ∈ rows := by
  induction rows with
  | nil => cases h
  | cons row rest ih =>
    rw [lookupOpcode] at h
    split_ifs at h with ho
    · cases h
      exact ho ▸ List.mem_cons_self
    · exact List.mem_cons_of_mem _ (ih h)

/-- The decoder's map and the encoder's table give each command the same opcode (R52). -/
theorem opcodeMap_agrees : ∀ row ∈ opcodeMap, row.1 = opcodeOf row.2 := by decide

theorem encode_eq_of_decode {w : CmdWord} {i : Instr} (h : decode w = .ok i) : encode i = w := by
  unfold decode at h
  split_ifs at h with hreserved
  split at h
  · cases h
    have hopcode : opcodeField w = opcodeOf i := opcodeMap_agrees _ (mem_of_lookupOpcode ‹_›)
    rw [encode, ← hopcode, setWidth_opcodeField hreserved]
  · cases h

theorem decode_eq_ok_iff {w : CmdWord} {i : Instr} : decode w = .ok i ↔ encode i = w :=
  ⟨encode_eq_of_decode, fun h => h ▸ decode_encode i⟩

theorem encode_injective {i j : Instr} (h : encode i = encode j) : i = j := by
  have hj : decode (encode i) = .ok j := h ▸ decode_encode j
  exact Decoded.ok.inj ((decode_encode i).symm.trans hj)

/-- The rows of spec/opcode_table.json, for whichever command. -/
theorem opcodeRow (i : Instr) : Laws.OpcodeRow.Statement i := by
  cases i
  exacts [Laws.OpcodeRow.pack, Laws.OpcodeRow.unpackn, Laws.OpcodeRow.unpackd, Laws.OpcodeRow.fromint,
    Laws.OpcodeRow.toint, Laws.OpcodeRow.zero, Laws.OpcodeRow.reduce, Laws.OpcodeRow.add, Laws.OpcodeRow.sub,
    Laws.OpcodeRow.mul, Laws.OpcodeRow.div, Laws.OpcodeRow.cmp, Laws.OpcodeRow.eq, Laws.OpcodeRow.ne,
    Laws.OpcodeRow.lt, Laws.OpcodeRow.le, Laws.OpcodeRow.gt, Laws.OpcodeRow.ge]

theorem encode_toNat (i : Instr) : (encode i).toNat = tableMatch i := (opcodeRow i).1

/-- Settles O2: the map has one row for each command, under its own opcode, and a legal word is its opcode. -/
theorem encodeDecodeAgree : Obligations.EncodeDecodeAgree := by
  have htable (i : Instr) : decodeTableWord 32 (encode i).toNat = some i := by
    obtain ⟨-, -, hrow⟩ := opcodeRow i
    rw [encode_toNat, hrow]
  exact ⟨decode_encode, fun _ _ => encode_eq_of_decode, htable, fun _ _ => encode_injective⟩

theorem decode_eq_ok_iff_toNat (w : CmdWord) (i : Instr) : decode w = .ok i ↔ w.toNat = tableMatch i := by
  rw [decode_eq_ok_iff, ← encode_toNat, ← BitVec.toNat_inj, eq_comm]

/-- Decoding has one outcome: it is illegal exactly when it is no command (R55). -/
theorem decode_illegal_iff_forall_ne_ok (w : CmdWord) : (∃ why, decode w = .illegal why) ↔ ∀ i, decode w ≠ .ok i := by
  cases decode w <;> simp

/-- Settles O1: a command's word is its table row's, and an illegal word is no command's. -/
theorem decodeMatchesOpcodeTable : Obligations.DecodeMatchesOpcodeTable := by
  intro w
  refine ⟨decode_eq_ok_iff_toNat w, ?_⟩
  simp only [decode_illegal_iff_forall_ne_ok, ne_eq, decode_eq_ok_iff_toNat]

/-! ## Illegal words -/

/-- The opcodes without a row are those R53 lists. -/
theorem lookupOpcode_eq_none_iff (o : Opcode) : lookupOpcode o opcodeMap = none ↔ Unassigned o.toNat := by
  revert o
  decide

theorem decode_illegal_iff (w : CmdWord) :
    (∃ why, decode w = .illegal why) ↔ Unassigned (w.toNat % 256) ∨ w.toNat / 256 ≠ 0 := by
  rw [← opcodeField_toNat, ← lookupOpcode_eq_none_iff, ne_eq, ← reservedField_eq_zero_iff]
  unfold decode
  split_ifs with hreserved
  · cases lookupOpcode (opcodeField w) opcodeMap <;> simp [hreserved]
  · exact iff_of_true ⟨_, rfl⟩ (.inr hreserved)

theorem completeCommand_of_illegal {s : State} (h : ∃ why, decode s.cmdL = .illegal why) :
    completeCommand s = .next (raises 5 s) := by
  obtain ⟨why, hwhy⟩ := h
  simp only [completeCommand, hwhy]
  exact finish_error .illegalCommand s

/-- Settles O4: the two causes of R53 are the two ways the decoder leaves its map, and its completion reads no operand. -/
theorem illegalWordsCompleteWithCode5 : Obligations.IllegalWordsCompleteWithCode5 :=
  ⟨decode_illegal_iff, ⟨.opcodeUnassigned, by decide⟩,
    fun s h => completeCommand_of_illegal ((decode_illegal_iff s.cmdL).2 h)⟩

/-- The ranges of R52 and the list of R53 are complements of one another. -/
theorem commandWellFormed_iff (w : CmdWord) :
    commandWellFormed w = true ↔ ¬ (Unassigned (w.toNat % 256) ∨ w.toNat / 256 ≠ 0) := by
  simp only [commandWellFormed, reservedBitsZero, opcodeAssigned, Bool.and_eq_true, Bool.or_eq_true, beq_iff_eq,
    decide_eq_true_eq]
  omega

/-- Settles O5: both are the words that are not illegal. -/
theorem wellFormedWordsAreThoseThatDecode : Obligations.WellFormedWordsAreThoseThatDecode := by
  intro w
  rw [commandWellFormed_iff, ← decode_illegal_iff, decode_illegal_iff_forall_ne_ok]
  simp

/-- Settles O3: six of the words are encodings, the other two are read by the decoder. -/
theorem decodeReadsWrittenWords : Obligations.DecodeReadsWrittenWords :=
  ⟨decode_encode .pack, decode_encode .reduce, decode_encode .sub, decode_encode .mul, decode_encode .div,
    decode_encode .le, by decide, by decide⟩

end Sys2Proof.Machine
end

section
/-! Proofs: how the commands read their operands. Each answer is the two checks of R51 and then a rest that ends in another
error or in none, and an ignored operand is not read (30_encoding.md R51, 60_exceptions.md R152). -/

namespace Sys2Proof.Machine

open Sys2Proof.Safety

/-- The check of the way an operand is read, then the rest of the pseudocode (R51). -/
def checkOperand : OperandKind → Word → Answer → Answer
  | .fraction => checkFrac
  | .integer => checkInt
  | .rawWord => fun _ rest => rest
  | .ignored => fun _ rest => rest

theorem checkOperand_eq (k : OperandKind) (w : Word) (r : Answer) :
    checkOperand k w r = if operandOk k w = true then r else .error .invalidOperand := by
  cases k with
  | fraction => cases h : malformed w <;> simp [checkOperand, checkFrac, operandOk, h]
  | integer => simp only [checkOperand, checkInt, operandOk, decide_eq_true_eq, gt_iff_lt, ← not_le, ite_not]
  | rawWord => rfl
  | ignored => rfl

/-- An answer that reads its operands in the given ways: InvalidOperand is the failure of a check, and an ignored operand
does not matter. -/
structure ReadsOperands (ka kb : OperandKind) (f : Word → Word → Answer) : Prop where
  invalid_iff : ∀ a b, f a b = .error .invalidOperand ↔ ¬ (operandOk ka a = true ∧ operandOk kb b = true)
  ignores_a : ka = .ignored → ∀ a a' b, f a b = f a' b
  ignores_b : kb = .ignored → ∀ a b b', f a b = f a b'

/-- Two checks, then a rest without InvalidOperand: that error is the failure of a check. -/
theorem checkOperand_both_invalid_iff (ka kb : OperandKind) (a b : Word) {r : Answer}
    (hr : r ≠ .error .invalidOperand) :
    checkOperand ka a (checkOperand kb b r) = .error .invalidOperand ↔
      ¬ (operandOk ka a = true ∧ operandOk kb b = true) := by
  rw [checkOperand_eq, checkOperand_eq]
  split_ifs with ha hb
  · simp [ha, hb, hr]
  · simp [hb]
  · simp [ha]

section
variable {ka kb : OperandKind}

theorem readsOperands_binary {rest : Word → Word → Answer} (hrest : ∀ a b, rest a b ≠ .error .invalidOperand)
    (ha : ka ≠ .ignored := by decide) (hb : kb ≠ .ignored := by decide) :
    ReadsOperands ka kb fun a b => checkOperand ka a <| checkOperand kb b <| rest a b :=
  ⟨fun a b => checkOperand_both_invalid_iff ka kb a b (hrest a b), fun h => absurd h ha, fun h => absurd h hb⟩

theorem readsOperands_unary {rest : Word → Answer} (hrest : ∀ a, rest a ≠ .error .invalidOperand)
    (ha : ka ≠ .ignored := by decide) :
    ReadsOperands ka .ignored fun a _ => checkOperand ka a (rest a) :=
  ⟨fun a b => checkOperand_both_invalid_iff ka .ignored a b (hrest a), fun h => absurd h ha, fun _ _ _ _ => rfl⟩

end

theorem readsOperands_nullary (v : Word) : ReadsOperands .ignored .ignored fun _ _ => .ok v :=
  ⟨fun a b => checkOperand_both_invalid_iff .ignored .ignored a b nofun, fun _ _ _ _ => rfl, fun _ _ _ _ => rfl⟩

@[simp] theorem reduce_ne_invalidOperand (n d : Nat) : reduce n d ≠ .error .invalidOperand :=
  reduce_ne_error (by decide) n d

/-! ## The commands

After its checks a command passes a word on, reduces, or raises an error that is not InvalidOperand. -/

theorem addWords_reads : ReadsOperands .fraction .fraction addWords :=
  readsOperands_binary fun a b => by split_ifs <;> simp

theorem subWords_reads : ReadsOperands .fraction .fraction subWords :=
  readsOperands_binary fun a b => by split_ifs <;> simp

theorem mulWords_reads : ReadsOperands .fraction .fraction mulWords :=
  readsOperands_binary fun a b => by split_ifs <;> simp

theorem divWords_reads : ReadsOperands .fraction .fraction divWords :=
  readsOperands_binary fun a b => by split_ifs <;> simp

theorem toIntWord_reads : ReadsOperands .fraction .ignored fun a _ => toIntWord a :=
  readsOperands_unary fun a => by split_ifs <;> simp

theorem reduceWord_reads : ReadsOperands .fraction .ignored fun a _ => reduceWord a :=
  readsOperands_unary fun a => reduce_ne_invalidOperand (num a) (den a)

theorem comparing_reads (code : Comparison → Word) :
    ReadsOperands .fraction .fraction fun a b => comparing a b code :=
  readsOperands_binary fun _ _ => nofun

/-- Every command's answer reads OPA and OPB in the ways R51 gives it. -/
theorem exec_reads_operands (i : Instr) :
    ∃ f, ReadsOperands (opaKind i) (opbKind i) f ∧ ∀ s, exec i s = finish (f s.latA s.latB) s := by
  cases i with
  | pack => exact ⟨packWords, readsOperands_binary (fun _ _ => nofun), fun _ => rfl⟩
  | unpackn => exact ⟨fun a _ => .ok (zext (num a)), readsOperands_unary (fun _ => nofun), fun _ => rfl⟩
  | unpackd => exact ⟨fun a _ => .ok (zext (den a)), readsOperands_unary (fun _ => nofun), fun _ => rfl⟩
  | fromint => exact ⟨fun a _ => fromIntWord a, readsOperands_unary (fun _ => nofun), fun _ => rfl⟩
  | toint => exact ⟨_, toIntWord_reads, fun _ => rfl⟩
  | zero => exact ⟨_, readsOperands_nullary zeroWord, fun _ => rfl⟩
  | reduce => exact ⟨_, reduceWord_reads, fun _ => rfl⟩
  | add => exact ⟨_, addWords_reads, fun _ => rfl⟩
  | sub => exact ⟨_, subWords_reads, fun _ => rfl⟩
  | mul => exact ⟨_, mulWords_reads, fun _ => rfl⟩
  | div => exact ⟨_, divWords_reads, fun _ => rfl⟩
  | cmp | eq | ne | lt | le | gt | ge => exact ⟨_, comparing_reads _, fun _ => rfl⟩

/-! ## The completion -/

/-- ERR tells InvalidOperand from every other completion (60_exceptions.md R150). -/
theorem errOf_finish_eq_four_iff {r : Answer} {s t : State} (h : finish r s = .next t) :
    errOf t.status = 4 ↔ r = .error .invalidOperand := by
  cases r with
  | ok v =>
    cases h
    exact iff_of_false (show errOf statusOk ≠ 4 by decide) nofun
  | error e =>
    cases h
    show errOf (statusError e) = 4 ↔ _
    cases e <;> decide

theorem finish_with_latA {r : Answer} {s t : State} (h : finish r s = .next t) (w : Word) :
    finish r { s with latA := w } = .next { t with latA := w } := by
  cases r <;> cases h <;> rfl

theorem finish_with_latB {r : Answer} {s t : State} (h : finish r s = .next t) (w : Word) :
    finish r { s with latB := w } = .next { t with latB := w } := by
  cases r <;> cases h <;> rfl

/-- Settles O23: the checks come first in every answer, and the completion writes no latch. -/
theorem operandChecksComeFirst : Obligations.OperandChecksComeFirst := by
  intro i s t h
  obtain ⟨f, hreads, hexec⟩ := exec_reads_operands i
  rw [hexec] at h
  refine ⟨(errOf_finish_eq_four_iff h).trans (hreads.invalid_iff s.latA s.latB), fun w hignored => ?_,
    fun w hignored => ?_⟩
  · rw [hexec, ← finish_with_latA h w, hreads.ignores_a hignored s.latA w]
  · rw [hexec, ← finish_with_latB h w, hreads.ignores_b hignored s.latA s.latB w]

end Sys2Proof.Machine
end

section
/-! Proofs: the pseudo-instructions. What a command line completes with, how an expansion goes on from line to
line, and the commands that stand behind each pseudo-instruction (30_encoding.md R56, R57). -/

namespace Sys2Proof.Machine

open Sys2Proof.Safety

/-! ## Lines and expansions -/

/-- A line of one operand drives 0 on the port of the omitted one (R56). -/
theorem run_unary {names : Names} {i : Instr} {x : Operand} {a : Word} (harity : arity i = 1)
    (hx : x.value names = some a) : Line.run names ⟨i, [x]⟩ = some (transact (encode i) a 0) := by
  simp [Line.run, Line.wellFormed, Line.operands, harity, hx]

theorem run_binary {names : Names} {i : Instr} {x y : Operand} {a b : Word} (harity : arity i = 2)
    (hx : x.value names = some a) (hy : y.value names = some b) :
    Line.run names ⟨i, [x, y]⟩ = some (transact (encode i) a b) := by
  simp [Line.run, Line.wellFormed, Line.operands, harity, hx, hy]

/-- An expansion goes on after a line that succeeds, with its result as a further name. -/
theorem runExpansion_of_ok {names : Names} {l l' : Line} {rest : List Line} {v : Word}
    (h : l.run names = some (outcome (.ok v))) :
    runExpansion names (l :: l' :: rest) = runExpansion (names ++ [some v]) (l' :: rest) := by
  have hrv : rvField 0x08 = true := by decide
  simp only [runExpansion, h, outcome_ok, nameOf, hrv, if_true]

/-- The first line that fails ends an expansion (R57). -/
theorem runExpansion_of_error {names : Names} {l l' : Line} {rest : List Line} {e : ErrorKind}
    (h : l.run names = some (outcome (.error e))) :
    runExpansion names (l :: l' :: rest) = some (outcome (.error e)) := by
  rw [runExpansion, h]
  cases e <;> rfl

/-! ## FRAC -/

theorem run_fromint {n : Nat} (hn : n < 2 ^ 256) (names : Names) : Line.run names ⟨.fromint, [.int n]⟩ =
    some (outcome (if n < 2 ^ 128 then .ok (wordOf n 1) else .error .invalidOperand)) := by
  have hvalue : (Operand.int n).value names = some (BitVec.ofNat 256 n) := if_pos hn
  rw [run_unary rfl hvalue, transact_fromint, fromIntWord, checkInt_eq, BitVec.toNat_ofNat, Nat.mod_eq_of_lt hn]
  split_ifs with hfit
  · rw [pack_eq_wordOf hfit (by decide)]
  · rfl

/-- DIV on two integers as fractions is the reduced quotient, which always fits (44_divider.md R120). -/
theorem divWords_of_integers {n d : Nat} (hn : n < 2 ^ 128) (hd : d < 2 ^ 128) :
    divWords (wordOf n 1) (wordOf d 1) =
      if d = 0 then .error .divisionByZero
      else if n = 0 then .ok 1
      else .ok (wordOf (n / Nat.gcd n d) (d / Nat.gcd n d)) := by
  have hone : 1 < 2 ^ 128 := by decide
  have hvalid (m : Nat) : Valid (wordOf m 1) := .inr (by rw [D_wordOf hone]; decide)
  have hfits : n / Nat.gcd n d < 2 ^ 128 ∧ d / Nat.gcd n d < 2 ^ 128 :=
    ⟨(Nat.div_le_self _ _).trans_lt hn, (Nat.div_le_self _ _).trans_lt hd⟩
  rw [divWords_eq, if_neg (by simp [hvalid]), N_wordOf hn hone, N_wordOf hd hone, D_wordOf hone, D_wordOf hone, mul_one,
    one_mul, reduce_eq, if_pos hfits]
  split_ifs <;> rfl

/-- FRAC's last line divides the results of the first two, which it names by their places. -/
theorem run_div_of_names (names : Names) (a b : Word) :
    Line.run (names ++ [some a] ++ [some b]) ⟨.div, [.name names.length, .name (names.length + 1)]⟩ =
      some (outcome (divWords a b)) := by
  rw [run_binary (a := a) (b := b) rfl (by simp [Operand.value]) (by simp [Operand.value]), transact_div]

/-- Settles O55, by the first of FRAC's three lines that fails. -/
theorem fracReturnsReducedFraction : Obligations.FracReturnsReducedFraction := by
  intro names n d hn hd
  have hfirst := run_fromint hn names
  have hsecond := run_fromint hd (names ++ [some (wordOf n 1)])
  unfold Pseudo.run Pseudo.expand
  by_cases hnfit : n < 2 ^ 128
  · rw [if_pos hnfit] at hfirst
    rw [runExpansion_of_ok hfirst]
    by_cases hdfit : d < 2 ^ 128
    · rw [if_pos hdfit] at hsecond
      have hfit : ¬ (2 ^ 128 ≤ n ∨ 2 ^ 128 ≤ d) := by omega
      rw [runExpansion_of_ok hsecond, runExpansion, run_div_of_names, divWords_of_integers hnfit hdfit, if_neg hfit]
      split_ifs <;> rfl
    · rw [if_neg hdfit] at hsecond
      rw [runExpansion_of_error hsecond, if_pos (.inr (not_lt.1 hdfit))]
      rfl
  · rw [if_neg hnfit] at hfirst
    rw [runExpansion_of_error hfirst, if_pos (.inl (not_lt.1 hnfit))]
    rfl

/-! ## Operator forms, ISZERO and CANON -/

theorem arity_operator (o : Operator) : arity o.command = 2 := by cases o <;> rfl

theorem transact_eq (a b : Word) :
    transact (encode .eq) a b = outcome (comparing a b fun c => truthWord (c == .equal)) :=
  transact_encode (f := fun a b => comparing a b fun c => truthWord (c == .equal)) (fun _ => rfl) a b

/-- EQ against ZERO tests for a zero fraction (45_comparator.md R132). -/
theorem transact_eq_one (a : Word) :
    transact (encode .eq) a 1 = if Valid a then (if N a = 0 then 1 else 0, 0x08) else (0, 0x04) := by
  have hone : Valid 1 := by decide
  rw [transact_eq, comparing_eq]
  by_cases ha : Valid a
  · have hlt : ¬ value a < 0 := not_lt.2 (value_nonneg a)
    have hboth : ¬ (¬ Valid a ∨ ¬ Valid 1) := by tauto
    rw [if_neg hboth, if_pos ha, compareWords_eq ha hone, value_one, if_neg hlt, outcome_ok]
    simp only [value_eq_zero_iff ha]
    split_ifs <;> rfl
  · rw [if_pos (.inl ha), if_neg ha]
    rfl

/-- Settles O56: each of these expansions is a single line. -/
theorem operatorFormsAreTheirCommands : Obligations.OperatorFormsAreTheirCommands := by
  intro names x y a b hx hy
  refine ⟨fun row hrow => ?_, ?_, run_unary rfl hx⟩
  · have hcommand : row.2 = row.1.command := by
      revert row
      decide
    rw [hcommand]
    exact run_binary (arity_operator row.1) hx hy
  · rw [← transact_eq_one]
    exact run_binary rfl hx rfl

end Sys2Proof.Machine
end

section
/-! Proofs: the codec, and the commands that build words and take them apart (40_pack_unpack.md R70 to R79). -/

namespace Sys2Proof.Machine

open Sys2Proof.Safety

/-! ## The codec -/

theorem le_MAX128_iff (n : Nat) : n ≤ Config.MAX128 ↔ n < 2 ^ 128 := Nat.lt_succ_iff.symm

/-- Settles O43: `Pack` of two fields is the number n·2^128 + d, whose quotient and remainder by 2^128 are n and d. -/
theorem codecIsBijection : Obligations.CodecIsBijection := by
  refine ⟨fun n d hn hd => ?_, fun w => ?_⟩
  · rw [le_MAX128_iff] at hn hd
    rw [num_eq_N, den_eq_D, pack_eq_wordOf hn hd]
    exact ⟨N_wordOf hn hd, D_wordOf hd⟩
  · rw [num_eq_N, den_eq_D, pack_eq_wordOf (N_lt w) (D_lt w), wordOf_N_D]

/-! ## The answers in plain numbers -/

theorem packWords_eq (a b : Word) : packWords a b =
    if 2 ^ 128 ≤ a.toNat ∨ 2 ^ 128 ≤ b.toNat then .error .invalidOperand else .ok (wordOf a.toNat b.toNat) := by
  rw [packWords, checkInt_eq, checkInt_eq]
  by_cases ha : a.toNat < 2 ^ 128
  · by_cases hb : b.toNat < 2 ^ 128
    · rw [if_pos ha, if_pos hb, if_neg (by omega), pack_eq_wordOf ha hb]
    · rw [if_pos ha, if_neg hb, if_pos (.inr (not_lt.1 hb))]
  · rw [if_neg ha, if_pos (.inl (not_lt.1 ha))]

theorem fromIntWord_eq (a : Word) : fromIntWord a =
    if 2 ^ 128 ≤ a.toNat then .error .invalidOperand else .ok (wordOf a.toNat 1) := by
  rw [fromIntWord, checkInt_eq]
  by_cases ha : a.toNat < 2 ^ 128
  · rw [if_pos ha, if_neg (not_le.2 ha), pack_eq_wordOf ha (by decide)]
  · rw [if_neg ha, if_pos (not_lt.1 ha)]

/-! ## The completions -/

/-- A failed operand check completes with code 4, a passed one with what the rest of the pseudocode completes with (R51). -/
theorem finish_checked (p : Prop) [Decidable p] {r : Answer} {s t : State} (h : finish r s = .next t) :
    finish (if p then .error .invalidOperand else r) s = .next (if p then raises 4 s else t) := by
  split_ifs
  · exact finish_error .invalidOperand s
  · exact h

/-- Settles O25: both integer checks, then the word of the two numbers. -/
theorem packBuildsWord : Obligations.PackBuildsWord := by
  refine ⟨by decide, fun s => ?_⟩
  show finish (packWords s.latA s.latB) s = _
  rw [packWords_eq]
  exact finish_checked _ (finish_ok _ s)

/-- Settles O28: the integer check, then the word over denominator 1. -/
theorem fromintLiftsInteger : Obligations.FromintLiftsInteger := by
  refine ⟨by decide, fun s => ?_⟩
  show finish (fromIntWord s.latA) s = _
  rw [fromIntWord_eq]
  exact finish_checked _ (finish_ok _ s)

/-- Settles O29: the fraction check, then the floor, which is 0 for a zero fraction of any denominator. -/
theorem tointTruncates : Obligations.TointTruncates := by
  refine ⟨by decide, fun s => ?_⟩
  have hfloor : finish (.ok (BitVec.ofNat 256 (N s.latA / D s.latA))) s = .next (
      if N s.latA = 0 then returns 0 s else returns (BitVec.ofNat 256 (N s.latA / D s.latA)) s) := by
    rw [finish_ok]
    split_ifs with hzero
    · rw [hzero, Nat.zero_div]
      rfl
    · rfl
  show finish (toIntWord s.latA) s = _
  rw [toIntWord_eq, ← ite_not]
  exact finish_checked _ hfloor

/-- Settles O26: UNPACKN checks nothing, and the numerator field is the high half of the number. -/
theorem unpacknReturnsNumerator : Obligations.UnpacknReturnsNumerator := by
  refine ⟨by decide, fun s => ?_⟩
  show finish (.ok (zext (num s.latA))) s = _
  rw [finish_ok, num_eq_N, zext]

/-- Settles O27: UNPACKD checks nothing, and the denominator field is the low half of the number. -/
theorem unpackdReturnsDenominator : Obligations.UnpackdReturnsDenominator := by
  refine ⟨by decide, fun s => ?_⟩
  show finish (.ok (zext (den s.latA))) s = _
  rw [finish_ok, den_eq_D, zext]

/-- Settles O30: ZERO reads no operand, and the canonical zero is the word 1. -/
theorem zeroReturnsCanonicalZero : Obligations.ZeroReturnsCanonicalZero := by
  refine ⟨by decide, fun s => ?_⟩
  show finish (.ok zeroWord) s = _
  rw [finish_ok, zeroWord_eq_one]

/-! ## The round trip -/

/-- An integer over denominator 1 is valid and its floor is the integer. -/
theorem toIntWord_wordOf_one {u : Nat} (hu : u < 2 ^ 128) : toIntWord (wordOf u 1) = .ok (BitVec.ofNat 256 u) := by
  have hden : D (wordOf u 1) = 1 := D_wordOf (by decide)
  have hvalid : Valid (wordOf u 1) := .inr (by rw [hden]; decide)
  rw [toIntWord_eq, if_pos hvalid, N_wordOf hu (by decide), hden, Nat.div_one]

/-- Settles O44: FROMINT answers u/1, and TOINT of that answers u. -/
theorem fromintTointRoundTrip : Obligations.FromintTointRoundTrip := by
  intro u y z hmax
  have hu := (le_MAX128_iff u).1 hmax
  have hnat : (BitVec.ofNat 256 u).toNat = u := by
    rw [BitVec.toNat_ofNat]
    omega
  have hfromint : transact (encode .fromint) (BitVec.ofNat 256 u) y = (wordOf u 1, 0x08) := by
    rw [transact_fromint, fromIntWord_eq, hnat, if_neg (not_le.2 hu), outcome_ok]
  refine ⟨by rw [Succeeds, statusAfter, hfromint], ?_⟩
  rw [resultOf, hfromint, transact_toint, toIntWord_wordOf_one hu, outcome_ok]

end Sys2Proof.Machine
end

section
/-! Proofs: the gcd normaliser. Euclid's loop, Reduce and the REDUCE command (41_gcd_normalizer.md R90 to R94). -/

namespace Sys2Proof.Machine

open Sys2Proof.Safety

/-! ## Euclid's loop -/

/-- Settles O45: the loop is the library's gcd, which is symmetric and obeys Euclid's recursion. -/
theorem gcdIsGreatestCommonDivisor : Obligations.GcdIsGreatestCommonDivisor := by
  intro a b ha
  simp only [euclidGcd_eq_gcd, true_and]
  refine ⟨Nat.gcd_pos_of_pos_left b ha, Nat.gcd_zero_right a, fun _ => Nat.gcd_comm a b, fun _ => ?_⟩
  calc Nat.gcd a b = Nat.gcd b a := Nat.gcd_comm a b
    _ = Nat.gcd (a % b) b := Nat.gcd_rec b a
    _ = Nat.gcd b (a % b) := Nat.gcd_comm _ _

/-! ## Reduce -/

/-- Settles O46: a field overflows exactly where it does not fit in 128 bits. -/
theorem reduceComputesLowestTerms : Obligations.ReduceComputesLowestTerms := by
  intro n d _
  rw [reduce_eq]
  simp only [← not_lt, ← not_and_or, ite_not]

/-- Fields that fit still fit once divided by their gcd, so Reduce answers a word (R94). -/
theorem reduce_eq_of_fits {n d : Nat} (hn : n < 2 ^ 128) (hd : d < 2 ^ 128) :
    reduce n d = .ok (if n = 0 then wordOf 0 d else wordOf (n / Nat.gcd n d) (d / Nat.gcd n d)) := by
  have hfits : n / Nat.gcd n d < 2 ^ 128 ∧ d / Nat.gcd n d < 2 ^ 128 :=
    ⟨(Nat.div_le_self _ _).trans_lt hn, (Nat.div_le_self _ _).trans_lt hd⟩
  rw [reduce_eq, if_pos hd, if_pos hfits]
  split_ifs <;> rfl

/-- The fields of a word that Reduce answers: a zero numerator's own, otherwise the quotients by the gcd (R91). -/
theorem reduce_ok_cases {n d : Nat} {w : Word} (h : reduce n d = .ok w) :
    (n = 0 ∧ w = wordOf 0 d ∧ N w = 0) ∨ (n ≠ 0 ∧ N w = n / Nat.gcd n d ∧ D w = d / Nat.gcd n d) := by
  rw [reduce_eq] at h
  split_ifs at h with hn hd hfits
  · cases h
    exact .inl ⟨hn, rfl, N_wordOf (by decide) hd⟩
  · cases h
    exact .inr ⟨hn, N_wordOf hfits.1 hfits.2, D_wordOf hfits.2⟩

/-- A common factor of both fields does not change what Reduce answers. -/
theorem reduce_mul_right {n d k : Nat} (hn : n ≠ 0) (hk : 0 < k) : reduce (n * k) (d * k) = reduce n d := by
  have hnk : n * k ≠ 0 := mul_ne_zero hn hk.ne'
  rw [reduce_eq, reduce_eq, if_neg hnk, if_neg hn, Nat.gcd_mul_right, Nat.mul_div_mul_right _ _ hk,
    Nat.mul_div_mul_right _ _ hk]

/-- Reduce depends on the value alone: bring both pairs to the common denominator d·d' (R93 e). -/
theorem reduce_eq_of_cross_eq {n d n' d' : Nat} (hn : n ≠ 0) (hn' : n' ≠ 0) (hd : 0 < d) (hd' : 0 < d')
    (hvalue : n * d' = n' * d) : reduce n d = reduce n' d' :=
  calc reduce n d = reduce (n * d') (d * d') := (reduce_mul_right hn hd').symm
    _ = reduce (n' * d) (d' * d) := by rw [hvalue, mul_comm d d']
    _ = reduce n' d' := reduce_mul_right hn' hd

/-- Dividing by the gcd keeps the cross product with the original pair (R93 a). -/
theorem div_gcd_mul_eq (n d : Nat) : n / Nat.gcd n d * d = n * (d / Nat.gcd n d) := by
  rw [Nat.div_mul_right_comm (Nat.gcd_dvd_left n d), Nat.mul_div_assoc n (Nat.gcd_dvd_right n d)]

/-- Settles O47, by the quotients by the gcd and the common denominator. -/
theorem reduceKeepsValue : Obligations.ReduceKeepsValue := by
  refine ⟨fun n d w hd h => ?_, fun n d hn hd hn0 hgcd => ?_, fun n d n' d' => reduce_eq_of_cross_eq⟩
  · obtain ⟨rfl, hw, hnum⟩ | ⟨hn0, hnum, hden⟩ := reduce_ok_cases h
    · exact ⟨by rw [hnum, zero_mul, zero_mul], (absurd rfl ·), fun _ => hw⟩
    · have hn : 0 < n := Nat.pos_of_ne_zero hn0
      rw [hnum, hden]
      exact ⟨div_gcd_mul_eq n d, fun _ => ⟨Nat.div_gcd_pos_of_pos_left d hn, Nat.div_gcd_pos_of_pos_right n (hd hn0),
        Nat.gcd_div_gcd_div_gcd_of_pos_left hn⟩, (absurd · hn0)⟩
  · rw [reduce_eq_of_fits hn hd, if_neg hn0, hgcd, Nat.div_one, Nat.div_one]

/-! ## REDUCE -/

/-- The fields of a word always fit, and those of a zero fraction are the word's own (R94). -/
theorem reduce_fields_eq (a : Word) : reduce (N a) (D a) =
    .ok (if N a = 0 then a else wordOf (N a / Nat.gcd (N a) (D a)) (D a / Nat.gcd (N a) (D a))) := by
  rw [reduce_eq_of_fits (N_lt a) (D_lt a)]
  by_cases hzero : N a = 0
  · rw [if_pos hzero, if_pos hzero, ← hzero, wordOf_N_D]
  · rw [if_neg hzero, if_neg hzero]

/-- Settles O31: the fraction check, then Reduce on the word's own fields. -/
theorem reduceNormalisesWord : Obligations.ReduceNormalisesWord := by
  refine ⟨by decide, fun s => ?_⟩
  show finish (reduceWord s.latA) s = _
  rw [reduceWord_eq, ← ite_not, reduce_fields_eq]
  refine finish_checked _ ?_
  rw [finish_ok]
  split_ifs <;> rfl

end Sys2Proof.Machine
end

section
/-! Proofs: the adder. The completions of ADD and SUB, and their laws (42_adder.md R101 to R103). -/

namespace Sys2Proof.Machine

open Sys2Proof.Safety

/-! ## Completions with a reduced fraction -/

/-- Reduce of a non-zero numerator completes with the quotients by the gcd, or with Overflow (R92 a). -/
theorem finish_reduce {n : Nat} (hn : n ≠ 0) (d : Nat) (s : State) :
    finish (reduce n d) s = .next (returnsReduced n d s) := by
  rw [reduce_eq, if_neg hn, returnsReduced]
  split_ifs
  · exact finish_ok _ s
  · exact finish_error .overflow s

/-- Reduce of a zero numerator completes with the zero over the denominator it is given, or with Overflow (R92 b). -/
theorem finish_reduce_zero (d : Nat) (s : State) :
    finish (reduce 0 d) s = .next (if d < 2 ^ 128 then returns (wordOf 0 d) s else raises 1 s) := by
  rw [reduce_eq, if_pos rfl]
  split_ifs
  · exact finish_ok _ s
  · exact finish_error .overflow s

/-- Settles O32: two non-zero operands have a non-zero sum, which Reduce completes with. -/
theorem addReturnsReducedSum : Obligations.AddReturnsReducedSum := by
  refine ⟨by decide, fun s => ?_⟩
  show finish (addWords s.latA s.latB) s = _
  rw [addWords_eq]
  split_ifs with hinvalid ha hb
  · exact finish_error .invalidOperand s
  · exact finish_ok _ s
  · exact finish_ok _ s
  · have hvalidB : Valid s.latB := by tauto
    have hterm : N s.latA * D s.latB ≠ 0 := mul_ne_zero ha (D_ne_zero hvalidB hb)
    exact finish_reduce (by omega) _ s

/-- Settles O33: past the order test the difference is zero for equal values only, and Reduce keeps a zero's denominator. -/
theorem subReturnsReducedDifference : Obligations.SubReturnsReducedDifference := by
  refine ⟨by decide, fun s => ?_⟩
  show finish (subWords s.latA s.latB) s = _
  rw [subWords_eq]
  split_ifs with hinvalid hb ha hless hsame hfits
  · exact finish_error .invalidOperand s
  · exact finish_ok _ s
  · exact finish_error .underflow s
  · exact finish_error .underflow s
  · rw [hsame, Nat.sub_self, finish_reduce_zero, if_pos hfits]
  · rw [hsame, Nat.sub_self, finish_reduce_zero, if_neg hfits]
  · exact finish_reduce (by omega) _ s

/-! ## Equality and order by value -/

/-- EQ of two valid words of one value answers 1 (45_comparator.md R132). -/
theorem resultOf_eq_of_value_eq {x y : Word} (hx : Valid x) (hy : Valid y) (h : value x = value y) :
    resultOf .eq x y = 1 := by
  rw [resultOf, transact_eq, comparing_eq, if_neg (by simp [hx, hy]), compareWords_eq hx hy, if_neg h.not_lt, if_pos h]
  rfl

/-- The order of the cross products, with its cases of a zero fraction, is the order of the values (R130). -/
theorem less_iff_value_lt {x y : Word} (hx : Valid x) (hy : Valid y) : Less x y ↔ value x < value y := by
  unfold Less
  split_ifs with hxn
  · rw [value_of_N_eq_zero hxn, (value_nonneg y).lt_iff_ne', ne_eq, ne_eq, value_eq_zero_iff hy]
  · by_cases hyn : N y = 0
    · rw [value_of_N_eq_zero hyn]
      exact iff_of_false (fun h => h.1 hyn) (value_nonneg x).not_gt
    · rw [value_lt_iff_cross (D_ne_zero hx hxn) (D_ne_zero hy hyn)]
      exact and_iff_right hyn

/-! ## The laws -/

/-- A difference from a valid word is a valid word. -/
theorem valid_resultOf_sub {x y : Word} (hx : Valid x) (hs : Succeeds .sub x y) : Valid (resultOf .sub x y) := by
  obtain ⟨-, hv⟩ | hv := subWords_ok_cases (answer_eq_ok_resultOf (transact_sub x y) hs)
  · rwa [hv]
  · exact hv.1.1

section
variable {x y : Word} (hx : Valid x) (hy : Valid y)
include hx hy

/-- ADD past its two checks: a zero operand passes the other one on, two non-zero ones are summed and reduced (R101). -/
theorem addWords_of_valid : addWords x y =
    if N x = 0 then .ok y else if N y = 0 then .ok x else reduce (N x * D y + N y * D x) (D x * D y) := by
  rw [addWords_eq, if_neg (by simp [hx, hy])]

/-- ADD commutes bit for bit, but for two zeros with different encodings (R103). -/
theorem addWords_comm (h : ¬ (N x = 0 ∧ N y = 0 ∧ x ≠ y)) : addWords x y = addWords y x := by
  rw [addWords_of_valid hx hy, addWords_of_valid hy hx, add_comm (N y * D x), mul_comm (D y)]
  split_ifs with hxn hyn
  · obtain rfl : x = y := by tauto
    rfl
  · rfl
  · rfl
  · rfl

/-- On valid words ADD fails by Overflow only (R101). -/
theorem addWords_ok_or_overflow : (∃ v, addWords x y = .ok v) ∨ addWords x y = .error .overflow := by
  rw [addWords_of_valid hx hy]
  split_ifs
  · exact .inl ⟨y, rfl⟩
  · exact .inl ⟨x, rfl⟩
  · rcases hr : reduce _ _ with e | v
    · by_cases he : e = .overflow
      · exact .inr (by rw [he])
      · exact absurd hr (reduce_ne_error he _ _)
    · exact .inl ⟨v, rfl⟩

/-- A sum of valid words is a valid word. -/
theorem valid_resultOf_add (hs : Succeeds .add x y) : Valid (resultOf .add x y) := by
  obtain ⟨-, hv⟩ | ⟨-, hv⟩ | hv := addWords_ok_cases (answer_eq_ok_resultOf (transact_add x y) hs)
  · rwa [hv]
  · rwa [hv]
  · exact hv.1.1

/-- Both orders of ADD end in the same STATUS (R103). -/
theorem statusAfter_add_comm : statusAfter .add x y = statusAfter .add y x := by
  rw [statusAfter, statusAfter, transact_add, transact_add]
  by_cases hzeros : N x = 0 ∧ N y = 0 ∧ x ≠ y
  · obtain ⟨hxn, hyn, -⟩ := hzeros
    rw [addWords_of_valid hx hy, addWords_of_valid hy hx, if_pos hxn, if_pos hyn, outcome_ok, outcome_ok]
  · rw [addWords_comm hx hy hzeros]

/-- Both orders of a sum are one value (R103). -/
theorem resultOf_eq_add_comm (hs : Succeeds .add x y) :
    resultOf .eq (resultOf .add x y) (resultOf .add y x) = 1 := by
  have hs' : Succeeds .add y x := (statusAfter_add_comm hy hx).trans hs
  refine resultOf_eq_of_value_eq (valid_resultOf_add hx hy hs) (valid_resultOf_add hy hx hs') ?_
  rw [value_resultOf (transact_add x y) (exact_addWords hx hy) hs,
    value_resultOf (transact_add y x) (exact_addWords hy hx) hs', add_comm]

/-- ADD gives back what SUB took away, where it does not overflow (R103). -/
theorem resultOf_eq_add_sub (hs : Succeeds .sub x y) (hfits : statusAfter .add (resultOf .sub x y) y ≠ 0x01) :
    resultOf .eq (resultOf .add (resultOf .sub x y) y) x = 1 := by
  have hr : Valid (resultOf .sub x y) := valid_resultOf_sub hx hs
  have hadd : Succeeds .add (resultOf .sub x y) y := by
    rw [statusAfter, transact_add] at hfits
    rw [Succeeds, statusAfter, transact_add, outcome_status_ok_iff]
    exact (addWords_ok_or_overflow hr hy).resolve_right fun h => hfits ((outcome_status_error_iff _ .overflow).2 h)
  refine resultOf_eq_of_value_eq (valid_resultOf_add hr hy hadd) hx ?_
  rw [value_resultOf (transact_add _ y) (exact_addWords hr hy) hadd,
    value_resultOf (transact_sub x y) (exact_subWords hx hy) hs, sub_add_cancel]

end

/-- ADD with the canonical zero, which stands in for every zero (R103). -/
theorem addWords_one {x : Word} (hx : Valid x) : addWords x 1 = .ok (if N x = 0 then 1 else x) := by
  have hone : Valid 1 := by decide
  have hzero : N 1 = 0 := by decide
  rw [addWords_of_valid hx hone, if_pos hzero]
  split_ifs <;> rfl

/-- Settles O48: ADD and SUB are exact on the values, and ADD's error and result are symmetric but for two zeros. -/
theorem adderLaws : Obligations.AdderLaws := by
  intro x y hx hy
  have hone : transact (encode .add) x 1 = (if N x = 0 then 1 else x, 0x08) := by
    rw [transact_add, addWords_one hx, outcome_ok]
  refine ⟨⟨statusAfter_add_comm hx hy, resultOf_eq_add_comm hx hy, fun hencodings => ?_⟩,
    ⟨by rw [Succeeds, statusAfter, hone], fun hxn => ?_, fun hxn => ⟨?_, ?_⟩⟩, resultOf_eq_add_sub hx hy, fun hless => ?_⟩
  · rw [resultOf, resultOf, transact_add, transact_add, addWords_comm hx hy hencodings]
  · rw [resultOf, hone, if_neg hxn]
  · rw [resultOf, hone, if_pos hxn]
  · exact resultOf_eq_of_value_eq (by decide) hx (by rw [value_one, value_of_N_eq_zero hxn])
  · rw [statusAfter, transact_sub]
    exact (outcome_status_error_iff _ .underflow).2
      ((subWords_underflow_iff hx hy).2 ((less_iff_value_lt hx hy).1 hless))

end Sys2Proof.Machine
end

section
/-! Proofs: the multiplier. The completion of MUL, and its laws (43_multiplier.md R110, R111). -/

namespace Sys2Proof.Machine

open Sys2Proof.Safety

/-! ## The completion -/

/-- Settles O34: two non-zero operands have a non-zero product, which Reduce completes with. -/
theorem mulReturnsReducedProduct : Obligations.MulReturnsReducedProduct := by
  refine ⟨by decide, fun s => ?_⟩
  show finish (mulWords s.latA s.latB) s = _
  rw [mulWords_eq]
  split_ifs with hinvalid hzero
  · exact finish_error .invalidOperand s
  · exact finish_ok _ s
  · obtain ⟨ha, hb⟩ := not_or.1 hzero
    exact finish_reduce (mul_ne_zero ha hb) _ s

/-! ## The laws -/

/-- MUL commutes on every pair of words, malformed ones included: its checks, its zero test and both products are
symmetric (R111). -/
theorem mulWords_comm (x y : Word) : mulWords x y = mulWords y x := by
  simp only [mulWords_eq, or_comm (b := ¬ Valid y), or_comm (b := N y = 0), mul_comm (N x), mul_comm (D x)]

section
variable {x y : Word} (hx : Valid x) (hy : Valid y)
include hx hy

/-- MUL past its two checks: ZERO for a zero operand, otherwise the reduced product (R110). -/
theorem mulWords_of_valid : mulWords x y =
    if N x = 0 ∨ N y = 0 then .ok 1 else reduce (N x * N y) (D x * D y) := by
  rw [mulWords_eq, if_neg (by simp [hx, hy])]

/-- A zero operand of any denominator makes the product the canonical zero (R110). -/
theorem mulWords_of_zero (hzero : N x = 0 ∨ N y = 0) : mulWords x y = .ok 1 := by
  rw [mulWords_of_valid hx hy, if_pos hzero]

end

/-- MUL by 1/1 is Reduce of the other operand's own fields, which fit (R111). -/
theorem mulWords_wordOf_one_one {x : Word} (hx : Valid x) (hxn : N x ≠ 0) : mulWords x (wordOf 1 1) =
    .ok (wordOf (N x / Nat.gcd (N x) (D x)) (D x / Nat.gcd (N x) (D x))) := by
  have hnum : N (wordOf 1 1) = 1 := by decide
  have hden : D (wordOf 1 1) = 1 := by decide
  rw [mulWords_of_valid hx (by decide), hnum, hden, mul_one, mul_one, if_neg (by simp [hxn]), reduce_fields_eq,
    if_neg hxn]

/-- Settles O49: MUL is symmetric, a zero operand absorbs, and 1/1 leaves the other operand reduced. -/
theorem multiplierLaws : Obligations.MultiplierLaws := by
  intro x y hx _
  simp only [transact_mul]
  refine ⟨congrArg outcome (mulWords_comm x y), ?_, fun hxn => ?_, ?_⟩
  · rw [mulWords_of_zero hx (by decide) (.inr (by decide)), outcome_ok]
  · rw [mulWords_wordOf_one_one hx hxn, outcome_ok]
  · rw [mulWords_of_zero (by decide) (by decide) (.inl (by decide)), outcome_ok]

end Sys2Proof.Machine
end

section
/-! Proofs: the divider. The completion of DIV, and its laws (44_divider.md R120, R121). -/

namespace Sys2Proof.Machine

open Sys2Proof.Safety

/-! ## The completion -/

/-- Settles O35: past the zero tests the first product is not zero, so Reduce completes with the exact quotient. -/
theorem divReturnsReducedQuotient : Obligations.DivReturnsReducedQuotient := by
  refine ⟨by decide, fun s => ?_⟩
  show finish (divWords s.latA s.latB) s = _
  rw [divWords_eq]
  split_ifs with hinvalid hb ha
  · exact finish_error .invalidOperand s
  · exact finish_error .divisionByZero s
  · exact finish_ok _ s
  · have hvalidB : Valid s.latB := by tauto
    exact finish_reduce (mul_ne_zero ha (D_ne_zero hvalidB hb)) _ s

/-! ## The laws -/

/-- A word that DIV answers is the exact quotient in lowest terms, and the canonical zero for a zero dividend (R121). -/
theorem divWords_ok_exact {x y v : Word} (h : divWords x y = .ok v) :
    N v * (D x * N y) = N x * D y * D v ∧ Nat.gcd (N v) (D v) = 1 ∧ (N x = 0 → v = 1) := by
  rw [divWords_eq] at h
  split_ifs at h with hinvalid hyn hxn
  · cases h
    have hone : N 1 = 0 := by decide
    exact ⟨by rw [hone, hxn, zero_mul, zero_mul, zero_mul], by decide, fun _ => rfl⟩
  · obtain ⟨hx, hy⟩ : Valid x ∧ Valid y := by tauto
    have hnum : N x * D y ≠ 0 := mul_ne_zero hxn (D_ne_zero hy hyn)
    have hden : D x * N y ≠ 0 := mul_ne_zero (D_ne_zero hx hxn) hyn
    obtain ⟨hvalue, hlowest, -⟩ := reduceKeepsValue.1 _ _ v (fun _ => Nat.pos_of_ne_zero hden) h
    obtain ⟨-, -, hgcd⟩ := hlowest hnum
    exact ⟨hvalue, hgcd, (absurd · hxn)⟩

/-- A zero dividend of any denominator makes the quotient the canonical zero (R120). -/
theorem divWords_of_zero {x y : Word} (hy : Valid y) (hyn : N y ≠ 0) (hxn : N x = 0) : divWords x y = .ok 1 := by
  have hx : Valid x := .inl hxn
  rw [divWords_eq, if_neg (by simp [hx, hy]), if_neg hyn, if_pos hxn]

/-- MUL gives back what DIV took away, where both succeed (R121). -/
theorem resultOf_eq_mul_div {x y : Word} (hx : Valid x) (hy : Valid y) (hyn : N y ≠ 0) (hdiv : Succeeds .div x y)
    (hmul : Succeeds .mul (resultOf .div x y) y) : resultOf .eq (resultOf .mul (resultOf .div x y) y) x = 1 := by
  obtain ⟨⟨hq, -⟩, -⟩ := divWords_normalised (answer_eq_ok_resultOf (transact_div x y) hdiv)
  obtain ⟨⟨hp, -⟩, -⟩ := mulWords_normalised (answer_eq_ok_resultOf (transact_mul _ y) hmul)
  have hvy : value y ≠ 0 := mt (value_eq_zero_iff hy).1 hyn
  refine resultOf_eq_of_value_eq hp hx ?_
  rw [value_resultOf (transact_mul _ y) (exact_mulWords hq hy) hmul,
    value_resultOf (transact_div x y) (exact_divWords hx hy) hdiv, div_mul_cancel₀ _ hvy]

/-- Settles O50: DIV of a zero answers the canonical zero, MUL undoes DIV on the values, and an answer is exact. -/
theorem dividerLaws : Obligations.DividerLaws := by
  intro x y hx hy hyn
  refine ⟨?_, resultOf_eq_mul_div hx hy hyn,
    fun hs => divWords_ok_exact (answer_eq_ok_resultOf (transact_div x y) hs)⟩
  rw [transact_div, divWords_of_zero hy hyn (by decide), outcome_ok]

end Sys2Proof.Machine
end

section
/-! Proofs: the comparator. The completions of its seven commands, and its laws (45_comparator.md R131 to R138). -/

namespace Sys2Proof.Machine

open Sys2Proof.Safety

/-! ## The comparison by value -/

/-- Fractions with positive denominators are equal where their cross products are. -/
theorem value_eq_iff_cross {x y : Word} (hx : D x ≠ 0) (hy : D y ≠ 0) :
    value x = value y ↔ N x * D y = N y * D x := by
  have hx' : (D x : ℚ) ≠ 0 := by exact_mod_cast hx
  have hy' : (D y : ℚ) ≠ 0 := by exact_mod_cast hy
  rw [value, value, div_eq_div_iff hx' hy']
  exact_mod_cast Iff.rfl

section
variable {x y : Word} (hx : Valid x) (hy : Valid y)
include hx hy

/-- Equal cross products, with the cases of a zero fraction, are equal values (R130). -/
theorem same_iff_value_eq : Same x y ↔ value x = value y := by
  unfold Same
  split_ifs with hxn
  · rw [value_of_N_eq_zero hxn, eq_comm (a := (0 : ℚ)), value_eq_zero_iff hy]
  · by_cases hyn : N y = 0
    · rw [value_of_N_eq_zero hyn, value_eq_zero_iff hx]
      exact iff_of_false (fun h => h.1 hyn) hxn
    · rw [value_eq_iff_cross (D_ne_zero hx hxn) (D_ne_zero hy hyn)]
      exact and_iff_right hyn

theorem compareWords_eq_less_iff : compareWords x y = .less ↔ value x < value y := by
  rw [compareWords_eq hx hy]
  split_ifs with hlt heq
  · exact iff_of_true rfl hlt
  · exact iff_of_false nofun hlt
  · exact iff_of_false nofun hlt

theorem compareWords_eq_equal_iff : compareWords x y = .equal ↔ value x = value y := by
  rw [compareWords_eq hx hy]
  split_ifs with hlt heq
  · exact iff_of_false nofun hlt.ne
  · exact iff_of_true rfl heq
  · exact iff_of_false nofun heq

theorem compareWords_eq_greater_iff : compareWords x y = .greater ↔ value y < value x := by
  rw [compareWords_eq hx hy]
  split_ifs with hlt heq
  · exact iff_of_false nofun hlt.not_gt
  · exact iff_of_false nofun heq.not_gt
  · exact iff_of_true rfl (lt_of_le_of_ne (not_lt.1 hlt) (Ne.symm heq))

end

/-! ## The completions -/

/-- A comparator command completes with code 4 for a malformed operand, otherwise with the code of the comparison. -/
theorem finish_comparing {code : Comparison → Word} {v : Word} {s : State}
    (hcode : Valid s.latA → Valid s.latB → code (compareWords s.latA s.latB) = v) :
    finish (comparing s.latA s.latB code) s =
      .next (if ¬ Valid s.latA ∨ ¬ Valid s.latB then raises 4 s else returns v s) := by
  rw [comparing_eq]
  split_ifs with hinvalid
  · exact finish_error .invalidOperand s
  · obtain ⟨hA, hB⟩ : Valid s.latA ∧ Valid s.latB := by tauto
    rw [finish_ok, hcode hA hB]

/-- The result code of a test is 1 exactly where the proposition it decides holds (R129). -/
theorem truthWord_eq_ite {b : Bool} {p : Prop} [Decidable p] (h : b = true ↔ p) :
    truthWord b = if p then 1 else 0 := by
  simp only [truthWord, h]

/-- A predicate completes with the truth of what its test of the comparison decides. -/
theorem finish_predicate {test : Comparison → Bool} {p : Prop} [Decidable p] {s : State}
    (htest : Valid s.latA → Valid s.latB → (test (compareWords s.latA s.latB) = true ↔ p)) :
    finish (comparing s.latA s.latB fun c => truthWord (test c)) s =
      .next (if ¬ Valid s.latA ∨ ¬ Valid s.latB then raises 4 s else returnsTruth p s) :=
  finish_comparing fun hA hB => truthWord_eq_ite (htest hA hB)

/-- Settles O36: the comparison is that of the values, and so are `Less` and `Same`. -/
theorem cmpOrdersByValue : Obligations.CmpOrdersByValue := by
  refine ⟨by decide, fun s => finish_comparing (code := Comparison.code) fun hA hB => ?_⟩
  rw [compareWords_eq hA hB]
  simp only [less_iff_value_lt hA hB, same_iff_value_eq hA hB]
  split_ifs <;> rfl

/-- Settles O37: the comparison is `equal` exactly for equal values. -/
theorem eqTestsEqualValue : Obligations.EqTestsEqualValue := by
  refine ⟨by decide, fun s => finish_predicate (test := (· == .equal)) fun hA hB => ?_⟩
  rw [beq_iff_eq, compareWords_eq_equal_iff hA hB, same_iff_value_eq hA hB]

/-- Settles O38: the negation of EQ's test. -/
theorem neTestsDifferentValue : Obligations.NeTestsDifferentValue := by
  refine ⟨by decide, fun s => finish_predicate (test := (· != .equal)) fun hA hB => ?_⟩
  rw [bne_iff_ne, ne_eq, compareWords_eq_equal_iff hA hB, same_iff_value_eq hA hB]

/-- Settles O39: the comparison is `less` exactly for a smaller value. -/
theorem ltTestsSmallerValue : Obligations.LtTestsSmallerValue := by
  refine ⟨by decide, fun s => finish_predicate (test := (· == .less)) fun hA hB => ?_⟩
  rw [beq_iff_eq, compareWords_eq_less_iff hA hB, less_iff_value_lt hA hB]

/-- Settles O40: the negation of GT's test. -/
theorem leTestsNotGreaterValue : Obligations.LeTestsNotGreaterValue := by
  refine ⟨by decide, fun s => finish_predicate (test := (· != .greater)) fun hA hB => ?_⟩
  rw [bne_iff_ne, ne_eq, compareWords_eq_greater_iff hA hB, less_iff_value_lt hB hA]

/-- Settles O41: the comparison is `greater` exactly for a greater value, which is `Less` with the operands exchanged. -/
theorem gtTestsGreaterValue : Obligations.GtTestsGreaterValue := by
  refine ⟨by decide, fun s => finish_predicate (test := (· == .greater)) fun hA hB => ?_⟩
  rw [beq_iff_eq, compareWords_eq_greater_iff hA hB, less_iff_value_lt hB hA]

/-- Settles O42: the negation of LT's test. -/
theorem geTestsNotSmallerValue : Obligations.GeTestsNotSmallerValue := by
  refine ⟨by decide, fun s => finish_predicate (test := (· != .less)) fun hA hB => ?_⟩
  rw [bne_iff_ne, ne_eq, compareWords_eq_less_iff hA hB, less_iff_value_lt hA hB]

/-! ## The laws -/

/-- A command that completes with the truth of p leaves 1 or 0 in RES (R129, R180). -/
theorem resultOf_of_truth {i : Instr} {x y : Word} {p : Prop} [Decidable p] (hx : Valid x) (hy : Valid y)
    (hexec : exec i (latched (encode i) x y) = .next (
      if ¬ Valid x ∨ ¬ Valid y then raises 4 (latched (encode i) x y)
      else returnsTruth p (latched (encode i) x y))) :
    resultOf i x y = if p then 1 else 0 := by
  have hcomplete : completeCommand (latched (encode i) x y) = .next (returnsTruth p (latched (encode i) x y)) := by
    rw [if_neg (by simp [hx, hy])] at hexec
    rw [completeCommand, show (latched (encode i) x y).cmdL = encode i from rfl, decode_encode, ← hexec]
  rw [resultOf, transact, hcomplete]
  rfl

section
variable {x y : Word} (hx : Valid x) (hy : Valid y)
include hx hy

theorem resultOf_eq : resultOf .eq x y = if value x = value y then 1 else 0 := by
  rw [resultOf_of_truth hx hy (eqTestsEqualValue.2 _)]
  exact if_congr (same_iff_value_eq hx hy) rfl rfl

theorem resultOf_ne : resultOf .ne x y = if ¬ value x = value y then 1 else 0 := by
  rw [resultOf_of_truth hx hy (neTestsDifferentValue.2 _)]
  exact if_congr (not_congr (same_iff_value_eq hx hy)) rfl rfl

theorem resultOf_lt : resultOf .lt x y = if value x < value y then 1 else 0 := by
  rw [resultOf_of_truth hx hy (ltTestsSmallerValue.2 _)]
  exact if_congr (less_iff_value_lt hx hy) rfl rfl

theorem resultOf_le : resultOf .le x y = if ¬ value y < value x then 1 else 0 := by
  rw [resultOf_of_truth hx hy (leTestsNotGreaterValue.2 _)]
  exact if_congr (not_congr (less_iff_value_lt hy hx)) rfl rfl

theorem resultOf_gt : resultOf .gt x y = if value y < value x then 1 else 0 := by
  rw [resultOf_of_truth hx hy (gtTestsGreaterValue.2 _)]
  exact if_congr (less_iff_value_lt hy hx) rfl rfl

theorem resultOf_ge : resultOf .ge x y = if ¬ value x < value y then 1 else 0 := by
  rw [resultOf_of_truth hx hy (geTestsNotSmallerValue.2 _)]
  exact if_congr (not_congr (less_iff_value_lt hx hy)) rfl rfl

theorem resultOf_eq_eq_one_iff : resultOf .eq x y = 1 ↔ value x = value y := by
  simp [resultOf_eq hx hy]

theorem resultOf_lt_eq_one_iff : resultOf .lt x y = 1 ↔ value x < value y := by
  simp [resultOf_lt hx hy]

/-- Exactly one of LT, EQ and GT answers 1 (R138). -/
theorem resultOf_lt_add_eq_add_gt :
    (resultOf .lt x y).toNat + (resultOf .eq x y).toNat + (resultOf .gt x y).toNat = 1 := by
  rw [resultOf_lt hx hy, resultOf_eq hx hy, resultOf_gt hx hy]
  rcases lt_trichotomy (value x) (value y) with h | h | h
  · simp [h, h.ne, h.not_gt]
  · simp [h]
  · simp [h, h.ne', h.not_gt]

/-- CMP with its operands exchanged answers the opposite code (R138). -/
theorem resultOf_cmp_swap : (resultOf .cmp x y).toNat = 2 - (resultOf .cmp y x).toNat := by
  rw [resultOf_cmp hx hy, resultOf_cmp hy hx]
  rcases lt_trichotomy (value x) (value y) with h | h | h
  · simp [h, h.ne', h.not_gt]
  · simp [h]
  · simp [h, h.ne', h.not_gt]

end

/-- The codes of a proposition and of its negation are complements (R129). -/
theorem toNat_ite_not (p : Prop) [Decidable p] :
    (if ¬ p then 1 else 0 : Word).toNat = 1 - (if p then 1 else 0 : Word).toNat := by
  by_cases h : p <;> simp [h]

/-- Settles O51: EQ and LT are the equality and the strict order of the values, and the other predicates follow them. -/
theorem comparatorLaws : Obligations.ComparatorLaws := by
  intro x y z hx hy hz
  refine ⟨resultOf_lt_add_eq_add_gt hx hy, ⟨?_, ?_, ?_⟩, resultOf_cmp_swap hx hy, ⟨?_, ?_, ?_⟩, ?_, ?_, ?_, ?_⟩
  · rw [resultOf_le hx hy, resultOf_gt hx hy, toNat_ite_not]
  · rw [resultOf_ge hx hy, resultOf_lt hx hy, toNat_ite_not]
  · rw [resultOf_ne hx hy, resultOf_eq hx hy, toNat_ite_not]
  · exact resultOf_eq_of_value_eq hx hx rfl
  · rw [resultOf_eq_eq_one_iff hx hy, resultOf_eq_eq_one_iff hy hx]
    exact Eq.symm
  · rw [resultOf_eq_eq_one_iff hx hy, resultOf_eq_eq_one_iff hy hz, resultOf_eq_eq_one_iff hx hz]
    exact Eq.trans
  · rw [resultOf_lt hx hx, if_neg (lt_irrefl _)]
  · rw [resultOf_lt_eq_one_iff hx hy, resultOf_lt_eq_one_iff hy hz, resultOf_lt_eq_one_iff hx hz]
    exact lt_trans
  · rw [ne_eq, resultOf_eq_eq_one_iff hx hy, resultOf_lt_eq_one_iff hx hy, resultOf_lt_eq_one_iff hy hx]
    exact lt_or_gt_of_ne
  · rw [resultOf_eq_eq_one_iff hx hy, resultOf_lt hx hz, resultOf_lt hy hz, resultOf_lt hz hx, resultOf_lt hz hy]
    intro h
    rw [h]
    exact ⟨rfl, rfl⟩

end Sys2Proof.Machine
end

section
/-! Proofs: the errors of the commands. The row of the error table bounds each command's answer, and operands that raise
each error of the row (60_exceptions.md R151, R154 to R157). -/

namespace Sys2Proof.Machine

open Sys2Proof.Safety

/-! ## Answers within a row of the error table -/

/-- Every error the answer can be has its code among these. -/
def RaisesOnly (codes : List Nat) (r : Answer) : Prop := ∀ e, r = .error e → e.code.toNat ∈ codes

section
variable {codes : List Nat}

theorem raisesOnly_ok (v : Word) : RaisesOnly codes (.ok v) := nofun

theorem raisesOnly_error (e : ErrorKind) (he : e.code.toNat ∈ codes := by decide) : RaisesOnly codes (.error e) := by
  rintro _ ⟨⟩
  exact he

/-- Overflow is the only error of Reduce (R91). -/
theorem raisesOnly_reduce (n d : Nat) (hoverflow : 1 ∈ codes := by decide) : RaisesOnly codes (reduce n d) := by
  intro e he
  have : e = .overflow := by_contra fun hne => reduce_ne_error hne n d he
  rwa [this]

end

theorem packWords_raisesOnly (a b : Word) : RaisesOnly (errorRow .pack) (packWords a b) := by
  rw [packWords_eq]
  split_ifs
  · exact raisesOnly_error .invalidOperand
  · exact raisesOnly_ok _

theorem fromIntWord_raisesOnly (a : Word) : RaisesOnly (errorRow .fromint) (fromIntWord a) := by
  rw [fromIntWord_eq]
  split_ifs
  · exact raisesOnly_error .invalidOperand
  · exact raisesOnly_ok _

theorem toIntWord_raisesOnly (a : Word) : RaisesOnly (errorRow .toint) (toIntWord a) := by
  rw [toIntWord_eq]
  split_ifs
  · exact raisesOnly_ok _
  · exact raisesOnly_error .invalidOperand

/-- The fields of a word fit, so REDUCE does not overflow (R94). -/
theorem reduceWord_raisesOnly (a : Word) : RaisesOnly (errorRow .reduce) (reduceWord a) := by
  rw [reduceWord_eq]
  split_ifs
  · obtain ⟨w, hw⟩ := reduce_fits (N_lt a) (D_lt a)
    rw [hw]
    exact raisesOnly_ok w
  · exact raisesOnly_error .invalidOperand

theorem addWords_raisesOnly (a b : Word) : RaisesOnly (errorRow .add) (addWords a b) := by
  rw [addWords_eq]
  split_ifs
  · exact raisesOnly_error .invalidOperand
  · exact raisesOnly_ok b
  · exact raisesOnly_ok a
  · exact raisesOnly_reduce _ _

theorem subWords_raisesOnly (a b : Word) : RaisesOnly (errorRow .sub) (subWords a b) := by
  rw [subWords_eq]
  split_ifs
  · exact raisesOnly_error .invalidOperand
  · exact raisesOnly_ok a
  · exact raisesOnly_error .underflow
  · exact raisesOnly_error .underflow
  · exact raisesOnly_reduce _ _

theorem mulWords_raisesOnly (a b : Word) : RaisesOnly (errorRow .mul) (mulWords a b) := by
  rw [mulWords_eq]
  split_ifs
  · exact raisesOnly_error .invalidOperand
  · exact raisesOnly_ok _
  · exact raisesOnly_reduce _ _

theorem divWords_raisesOnly (a b : Word) : RaisesOnly (errorRow .div) (divWords a b) := by
  rw [divWords_eq]
  split_ifs
  · exact raisesOnly_error .invalidOperand
  · exact raisesOnly_error .divisionByZero
  · exact raisesOnly_ok _
  · exact raisesOnly_reduce _ _

theorem comparing_raisesOnly (a b : Word) (code : Comparison → Word) : RaisesOnly [4] (comparing a b code) := by
  rw [comparing_eq]
  split_ifs
  · exact raisesOnly_error .invalidOperand
  · exact raisesOnly_ok _

/-- The answer a command finishes with stays within the command's row (R151). -/
theorem exec_finishes_in_row (i : Instr) (s : State) : ∃ r, RaisesOnly (errorRow i) r ∧ exec i s = finish r s := by
  cases i with
  | pack => exact ⟨_, packWords_raisesOnly s.latA s.latB, rfl⟩
  | unpackn | unpackd | zero => exact ⟨_, raisesOnly_ok _, rfl⟩
  | fromint => exact ⟨_, fromIntWord_raisesOnly s.latA, rfl⟩
  | toint => exact ⟨_, toIntWord_raisesOnly s.latA, rfl⟩
  | reduce => exact ⟨_, reduceWord_raisesOnly s.latA, rfl⟩
  | add => exact ⟨_, addWords_raisesOnly s.latA s.latB, rfl⟩
  | sub => exact ⟨_, subWords_raisesOnly s.latA s.latB, rfl⟩
  | mul => exact ⟨_, mulWords_raisesOnly s.latA s.latB, rfl⟩
  | div => exact ⟨_, divWords_raisesOnly s.latA s.latB, rfl⟩
  | cmp | eq | ne | lt | le | gt | ge => exact ⟨_, comparing_raisesOnly s.latA s.latB _, rfl⟩

/-! ## The completions -/

/-- A command completes with a result or with an error of its row. -/
theorem exec_cases (i : Instr) (s : State) :
    (∃ v, exec i s = .next (returns v s)) ∨
      ∃ e : ErrorKind, e.code.toNat ∈ errorRow i ∧ exec i s = .next (raises e.code.toNat s) := by
  obtain ⟨r, hrow, hexec⟩ := exec_finishes_in_row i s
  obtain ⟨v, -, hfinish⟩ | ⟨e, hr, hfinish⟩ := finish_cases r s
  · exact .inl ⟨v, hexec.trans hfinish⟩
  · exact .inr ⟨e, hrow e hr, hexec.trans hfinish⟩

theorem errorRow_range (i : Instr) : ∀ c ∈ errorRow i, 1 ≤ c ∧ c ≤ 4 := by cases i <;> decide

theorem errOf_returns (v : Word) (s : State) : errOf (returns v s).status = 0 := show errOf 0x08 = 0 by decide

theorem errOf_raises (e : ErrorKind) (s : State) : errOf (raises e.code.toNat s).status = e.code.toNat := by
  cases e <;> rfl

/-- Settles O21: an error completion carries a code of the command's row, and every row holds codes 1 to 4. -/
theorem everyCommandCompletesOneOfTwoWays : Obligations.EveryCommandCompletesOneOfTwoWays := by
  intro i s
  obtain ⟨v, hexec⟩ | ⟨e, hrow, hexec⟩ := exec_cases i s
  · exact ⟨_, hexec, .inl ⟨v, rfl⟩⟩
  · obtain ⟨hlow, hhigh⟩ := errorRow_range i _ hrow
    exact ⟨_, hexec, .inr ⟨_, hlow, hhigh, rfl⟩⟩

/-- A completion writes RES, STATUS and RSP_VALID whatever they held (R157). -/
theorem finish_overwrites (a : Answer) (s : State) (r : Word) (st : StatusWord) (v : Bool) :
    finish a { s with res := r, status := st, rspValid := v } = finish a s := by
  cases a <;> rfl

/-- Settles O24: the answer depends on the latches only, and the completion overwrites the three registers. -/
theorem statusIsNotSticky : Obligations.StatusIsNotSticky := by
  intro i s r st v
  obtain ⟨f, hexec⟩ := exec_of_latches i
  rw [hexec, hexec]
  exact finish_overwrites _ s r st v

/-! ## Every error of every row -/

/-- For each code, operands on which every command whose row holds the code completes with it. The sum, difference,
product and quotient of MAX128/1 and 7/2 do not fit; 1/0 is malformed as a fraction and too wide as an integer. -/
def raisingOperands : Nat → Word × Word
  | 1 => (wordOf Config.MAX128 1, wordOf 7 2)
  | 2 => (wordOf 0 1, wordOf 1 1)
  | 3 => (wordOf 1 1, wordOf 0 1)
  | _ => (wordOf 1 0, 0)

theorem errOf_statusAfter_raisingOperands (i : Instr) :
    ∀ c ∈ errorRow i, errOf (statusAfter i (raisingOperands c).1 (raisingOperands c).2) = c := by
  cases i <;> decide

/-- The completion of a command leaves in ERR what its transaction shows. -/
theorem exec_errOf_statusAfter (i : Instr) (a b : Word) :
    ∃ s t, exec i s = .next t ∧ errOf t.status = errOf (statusAfter i a b) := by
  obtain ⟨f, hexec⟩ := exec_of_latches i
  refine ⟨latched (encode i) a b, _, hexec _, ?_⟩
  rw [statusAfter, transact_encode hexec]
  show errOf (complete (f a b) (latched (encode i) a b)).status = errOf (outcome (f a b)).2
  cases f a b with
  | ok v => rfl
  | error e => cases e <;> rfl

/-- Settles O22: no answer leaves its row, each error of a row is raised on its operands, and an illegal word completes
with IllegalCommand. -/
theorem commandsRaiseExactlyTheErrorsOfTheTable : Obligations.CommandsRaiseExactlyTheErrorsOfTheTable := by
  refine ⟨fun i s => ?_, fun i c hc => ?_, fun w a b why hillegal => ?_⟩
  · obtain ⟨v, hexec⟩ | ⟨e, hrow, hexec⟩ := exec_cases i s
    · exact ⟨_, hexec, .inl (errOf_returns v s)⟩
    · exact ⟨_, hexec, .inr (by rwa [errOf_raises])⟩
  · obtain ⟨s, t, hexec, herr⟩ := exec_errOf_statusAfter i (raisingOperands c).1 (raisingOperands c).2
    exact ⟨s, t, hexec, herr.trans (errOf_statusAfter_raisingOperands i c hc)⟩
  · exact transact_eq_outcome (f := fun _ _ => .error .illegalCommand)
      (fun s hs => completeCommand_of_illegal ⟨why, hs ▸ hillegal⟩) a b

end Sys2Proof.Machine
end

section
/-! Proofs: reset, the life of a command, and what the step leaves alone (70_reset_and_hazards.md R170 to R180). The kinds
of step are those of `step_cases`; a completion is the one event that `transact` describes. -/

namespace Sys2Proof.Machine

open Sys2Proof.Safety

/-! ## The events of a command in progress -/

theorem step_of_due {s : State} {rest : List HostAction} (hmoves : BlockMoves s rest) (hlow : s.pins.rst = false)
    (hbusy : s.busy = true) (hdue : s.wait = 0) : step s = completeCommand { s with host := rest } := by
  simp [step_of_blockMoves hmoves, blockEvent, hlow, hbusy, hdue]

theorem step_of_waiting {s : State} {rest : List HostAction} {n : Nat} (hmoves : BlockMoves s rest)
    (hlow : s.pins.rst = false) (hbusy : s.busy = true) (hwait : s.wait = n + 1) :
    step s = .next (workOn n { s with host := rest }) := by
  simp [step_of_blockMoves hmoves, blockEvent, hlow, hbusy, hwait]

theorem completeCommand_of_ok {s : State} {i : Instr} (h : decode s.cmdL = .ok i) : completeCommand s = exec i s := by
  simp only [completeCommand, h]

/-- Settles O6: a due command is completed, and the completion dispatches on the decoded word. -/
theorem stepRunsDecodedCommand : Obligations.StepRunsDecodedCommand := by
  intro s rest hmoves hlow hbusy hdue
  have hstep := step_of_due hmoves hlow hbusy hdue
  exact ⟨fun i hok => hstep.trans (completeCommand_of_ok hok),
    fun why hillegal => hstep.trans (completeCommand_of_illegal ⟨why, hillegal⟩)⟩

/-- A completion writes what the answer shows and ends the command (R154, R155). -/
theorem finish_eq_outcome (r : Answer) (s : State) : finish r s =
    .next { s with busy := false, rspValid := true, res := (outcome r).1, status := (outcome r).2 } := by
  cases r with
  | ok v => rfl
  | error e => exact finish_error e s

/-- Settles O13: the answer is one function of the latches, in `s` as in the state that `transact` completes. -/
theorem completionDependsOnLatchesOnly : Obligations.CompletionDependsOnLatchesOnly := by
  intro s
  obtain ⟨f, hanswer⟩ := completeCommand_of_latches s.cmdL
  rw [transact_eq_outcome hanswer, hanswer s rfl]
  exact finish_eq_outcome _ s

/-- Settles O14: a completion and an event of a command in progress carry the ports along and do not read them. -/
theorem portsDoNotReachAcceptedCommand : Obligations.PortsDoNotReachAcceptedCommand := by
  intro s t p rest hmoves hbusy hlow hplow hstep
  have hmoves' : BlockMoves { s with pins := p } rest := hmoves
  obtain hdue | hwait := Nat.eq_zero_or_eq_sub_one_add_one (n := s.wait)
  · rw [step_of_due hmoves hlow hbusy hdue, completionDependsOnLatchesOnly] at hstep
    rw [step_of_due hmoves' hplow hbusy hdue, completionDependsOnLatchesOnly]
    cases hstep
    rfl
  · rw [step_of_waiting hmoves hlow hbusy hwait] at hstep
    rw [step_of_waiting hmoves' hplow hbusy hwait]
    cases hstep
    rfl

/-! ## The events of an idle block -/

theorem reqReady_iff {s : State} : s.reqReady = true ↔ s.busy = false ∧ s.pins.rst = false := by
  simp [State.reqReady]

/-- Settles O7: the free values are those that the acceptance draws. -/
theorem stepAcceptsPresentedCommand : Obligations.StepAcceptsPresentedCommand := by
  intro s rest hmoves hready hreq
  obtain ⟨hidle, hlow⟩ := reqReady_iff.1 hready
  exact ⟨(accept s).wait, (accept s).draws, (accept s).work,
    (step_of_blockMoves hmoves).trans (blockEvent_of_request hlow hidle hreq)⟩

/-- Settles O8: such a step is an event of a command in progress or of an idle block that is presented nothing. -/
theorem stepWithoutEventKeepsRegisters : Obligations.StepWithoutEventKeepsRegisters := by
  refine ⟨fun s rest n hmoves hlow hbusy hwait => ?_, fun s rest hmoves hready hreq => ?_⟩
  · exact ⟨(workOn n s).work, (workOn n s).draws, step_of_waiting hmoves hlow hbusy hwait⟩
  · obtain ⟨hidle, hlow⟩ := reqReady_iff.1 hready
    exact (step_of_blockMoves hmoves).trans (blockEvent_of_no_request hlow hidle hreq)

/-! ## Reset -/

theorem atReset_resetRegs (s : State) : AtReset (resetRegs s) := ⟨rfl, rfl, rfl, rfl⟩

/-- RST keeps REQ_READY low (R170, log 6). -/
theorem reqReady_of_rst {s : State} (h : s.pins.rst = true) : s.reqReady = false := by
  simp [State.reqReady, h]

/-- Settles O11: raising RST and every event under it are a reset, lowering it changes the ports alone. -/
theorem resetAbandonsCommand : Obligations.ResetAbandonsCommand := by
  refine ⟨fun s p rest hhost hp => ?_, fun s rest hmoves hrst => ?_, fun s p rest hhost hp hreset => ?_,
    ⟨rfl, rfl, rfl, rfl⟩, rfl⟩
  · rw [step_drive hhost, drivePins_high _ hp]
    exact ⟨_, rfl, atReset_resetRegs _, reqReady_of_rst hp, rfl, rfl⟩
  · exact ⟨_, (step_of_blockMoves hmoves).trans (blockEvent_of_rst hrst), atReset_resetRegs _, reqReady_of_rst hrst, rfl,
      rfl⟩
  · have ⟨_, _, hidle, _⟩ := hreset
    rw [step_drive hhost, drivePins_low _ hp]
    exact ⟨_, rfl, hreset, reqReady_iff.2 ⟨hidle, hp⟩, rfl, rfl⟩

/-! ## What changes the registers and the latches -/

@[simp] theorem complete_busy (r : Answer) (s : State) : (complete r s).busy = false := by cases r <;> rfl
@[simp] theorem complete_rspValid (r : Answer) (s : State) : (complete r s).rspValid = true := by cases r <;> rfl
@[simp] theorem complete_cmdL (r : Answer) (s : State) : (complete r s).cmdL = s.cmdL := by cases r <;> rfl
@[simp] theorem complete_latA (r : Answer) (s : State) : (complete r s).latA = s.latA := by cases r <;> rfl
@[simp] theorem complete_latB (r : Answer) (s : State) : (complete r s).latB = s.latB := by cases r <;> rfl

/-- A drive of the ports is a reset under RST, or changes the ports alone (R170). -/
theorem drivePins_cases (p : Pins) (s : State) :
    ((drivePins p s).pins.rst = true ∧ AtReset (drivePins p s)) ∨ drivePins p s = { s with pins := p } := by
  cases hp : p.rst with
  | true =>
    rw [drivePins_high s hp]
    exact .inl ⟨hp, atReset_resetRegs _⟩
  | false => exact .inr (drivePins_low s hp)

/-- Settles O9, by the kinds of step: but for a reset and a completion none writes RES or STATUS. -/
theorem registersChangeOnlyAtCompletionOrReset : Obligations.RegistersChangeOnlyAtCompletionOrReset := by
  intro s t hstep hchanged
  obtain ⟨rest, ⟨rfl, hrst⟩ | ⟨r, rfl, hlow, hbusy, hdue⟩ | ⟨n, rfl, -⟩ | ⟨rfl, -⟩ | ⟨rfl, -⟩ | ⟨p, rfl, -⟩ | ⟨rfl, -⟩⟩ :=
    step_cases hstep
  · exact .inr ⟨hrst, atReset_resetRegs _⟩
  · exact .inl ⟨hbusy, hdue, hlow, complete_busy r _, complete_rspValid r _⟩
  · simp at hchanged
  · simp at hchanged
  · simp at hchanged
  · obtain hreset | hports := drivePins_cases p { s with host := rest }
    · exact .inr hreset
    · simp [hports] at hchanged
  · simp at hchanged

/-- Settles O10, by the kinds of step: but for a reset and an acceptance none writes a latch. -/
theorem latchesChangeOnlyAtAcceptanceOrReset : Obligations.LatchesChangeOnlyAtAcceptanceOrReset := by
  intro s t hstep hchanged
  obtain ⟨rest, ⟨rfl, hrst⟩ | ⟨r, rfl, -⟩ | ⟨n, rfl, -⟩ | ⟨rfl, hlow, hidle, hreq⟩ | ⟨rfl, -⟩ | ⟨p, rfl, -⟩ | ⟨rfl, -⟩⟩ :=
    step_cases hstep
  · exact .inr ⟨hrst, atReset_resetRegs _⟩
  · simp at hchanged
  · simp at hchanged
  · exact .inl ⟨reqReady_iff.2 ⟨hidle, hlow⟩, hreq, rfl, rfl, rfl, rfl⟩
  · simp at hchanged
  · obtain hreset | hports := drivePins_cases p { s with host := rest }
    · exact .inr hreset
    · simp [hports] at hchanged
  · simp at hchanged

end Sys2Proof.Machine
end

section
/-! Proofs: every accepted command completes (70_reset_and_hazards.md R174, R176, R180). Each step of a command in progress
under a patient host takes an action off the host's list or an event off the latency, and the last one completes. -/

namespace Sys2Proof.Machine

open Sys2Proof.Safety

/-! ## The host's list -/

theorem patient_drive_cons {valid : Bool} {p : Pins} {hs : List HostAction} :
    patient valid (.drive p :: hs) = true ↔ p.rst = false ∧ patient valid hs = true := by
  simp [patient]

theorem patient_readResult_cons {valid : Bool} {hs : List HostAction} :
    patient valid (.readResult :: hs) = true ↔ valid = true ∧ patient valid hs = true := by
  simp [patient]

/-- What is left of a patient host's list after the block has moved is patient, and no longer than the list was. -/
theorem patient_of_blockMoves {s : State} {rest : List HostAction} {valid : Bool} (hmoves : BlockMoves s rest)
    (h : patient valid s.host = true) : patient valid rest = true ∧ rest.length ≤ s.host.length := by
  obtain ⟨hhost, rfl⟩ | hhost := hmoves
  · exact ⟨rfl, Nat.zero_le _⟩
  · rw [hhost] at h ⊢
    exact ⟨h, Nat.le_succ _⟩

/-! ## A command on its way -/

/-- The command with these latched values is in progress, out of reset and under a patient host. -/
structure InProgress (c : CmdWord) (a b : Word) (s : State) : Prop where
  busy : s.busy = true
  low : s.pins.rst = false
  patientHost : patient (RV s.status) s.host = true
  cmdL : s.cmdL = c
  latA : s.latA = a
  latB : s.latB = b

/-- The command with these latched values has just completed with the result of `Exec` (R180). -/
def Completed (c : CmdWord) (a b : Word) (t : State) : Prop :=
  t.busy = false ∧ t.rspValid = true ∧ (t.res, t.status) = transact c a b

section
variable {c : CmdWord} {a b : Word} {s : State}

/-- When the block moves, the command completes or has one event less to wait. -/
theorem InProgress.blockMoves (hs : InProgress c a b s) {rest : List HostAction} (hmoves : BlockMoves s rest) :
    ∃ t, step s = .next t ∧
      (Completed c a b t ∨ InProgress c a b t ∧ t.host.length + t.wait < s.host.length + s.wait) := by
  obtain ⟨hbusy, hlow, hpatient, rfl, rfl, rfl⟩ := hs
  obtain ⟨hrest, hlength⟩ := patient_of_blockMoves hmoves hpatient
  obtain hdue | hwait := Nat.eq_zero_or_eq_sub_one_add_one (n := s.wait)
  · rw [step_of_due hmoves hlow hbusy hdue, completionDependsOnLatchesOnly]
    exact ⟨_, rfl, .inl ⟨rfl, rfl, rfl⟩⟩
  · have hless : rest.length + (s.wait - 1) < s.host.length + s.wait := by omega
    exact ⟨_, step_of_waiting hmoves hlow hbusy hwait, .inr ⟨⟨hbusy, hlow, hrest, rfl, rfl, rfl⟩, hless⟩⟩

/-- Each step of a command in progress completes it or brings its completion nearer. -/
theorem InProgress.step (hs : InProgress c a b s) :
    ∃ t, step s = .next t ∧
      (Completed c a b t ∨ InProgress c a b t ∧ t.host.length + t.wait < s.host.length + s.wait) := by
  rcases step_kinds s with ⟨rest, hmoves⟩ | ⟨p, rest, hhost⟩ | ⟨rest, hhost⟩
  · exact hs.blockMoves hmoves
  · obtain ⟨hbusy, hlow, hpatient, hc, ha, hb⟩ := hs
    rw [hhost, patient_drive_cons] at hpatient
    obtain ⟨hp, hrest⟩ := hpatient
    rw [step_drive hhost, drivePins_low _ hp]
    exact ⟨_, rfl, .inr ⟨⟨hbusy, hp, hrest, hc, ha, hb⟩, by simp [hhost]⟩⟩
  · obtain ⟨hbusy, hlow, hpatient, hc, ha, hb⟩ := hs
    rw [hhost, patient_readResult_cons, decide_eq_true_iff] at hpatient
    obtain ⟨hrv, hrest⟩ := hpatient
    have hstep := (readingResultNeedsRV s rest hhost).2 hrv
    exact ⟨_, hstep, .inr ⟨⟨hbusy, hlow, hrest, hc, ha, hb⟩, by simp [hhost]⟩⟩

/-- By induction on what the host and the latency still have to do. -/
theorem InProgress.completes (hs : InProgress c a b s) :
    ∃ k ≤ s.host.length + s.wait + 1, ∃ t : State, core.run k s = .next t ∧ Completed c a b t := by
  induction hleft : s.host.length + s.wait using Nat.strong_induction_on generalizing s with
  | _ left ih =>
    obtain ⟨t, hstep, hcompleted | ⟨ht, hless⟩⟩ := hs.step
    · exact ⟨1, by omega, t, run_succ (M := core) hstep, hcompleted⟩
    · obtain ⟨k, hk, t', hrun, hcompleted⟩ := ih _ (hleft ▸ hless) ht rfl
      exact ⟨k + 1, by omega, t', (run_succ (M := core) hstep).trans hrun, hcompleted⟩

end

/-- Settles O12: the hypotheses say that the latched command is in progress. -/
theorem acceptedCommandCompletes : Obligations.AcceptedCommandCompletes := by
  intro s hbusy hlow hpatient
  exact InProgress.completes ⟨hbusy, hlow, hpatient, rfl, rfl, rfl⟩

end Sys2Proof.Machine
end
